-- ==== Sys2Proof/Word.lean ====
section
/-! DEFINITION. The widths the spec names: nibbles, bytes, 16-bit blocks, bus words, window offsets and request vectors (00_scope.md R6 to R9). -/

namespace Sys2Proof

/-- A 4-bit value, an element of GF(2^4) (R6 `NIB_W`, R100). -/
abbrev Nibble := BitVec 4

/-- An 8-bit half of a round key (R36). -/
abbrev Byte := BitVec 8

/-- A 16-bit block or key (R6 `BLOCK_W`, `KEY_W`). -/
abbrev Block := BitVec 16

/-- A word on the host's data bus (R7 `BUS_DW`). -/
abbrev BusWord := BitVec 32

/-- A byte offset in the 64-byte register window (R7 `BUS_AW`). -/
abbrev Offset := BitVec 6

/-- The bus request vector q (R71). -/
abbrev RequestVector := BitVec 39

end Sys2Proof
end

