-- ==== Sys2Proof/Config.lean ====
section
/-! DEFINITION. The parameters an implementation fixes (00_scope.md R7): the substitution table, the latencies and the window's base. Their configured values are in Machine/Tables.lean. -/

namespace Sys2Proof

/-- A substitution table: entry n is what nibble n is replaced by (R120). The spec makes `SBOX` a parameter (R7): the functions over it take it as an argument, and the machine takes it from the State it is run on (log 9). -/
structure SBox where
  entries : List Nibble
  deriving DecidableEq, Repr

/-- "`SBOX` is a permutation of 0..15" (R121): sixteen entries, none twice. -/
abbrev SBox.IsPermutation (T : SBox) : Prop := T.entries.length = 16 ∧ T.entries.Nodup

/-- "A proposed `SBOX` that is not a permutation is refused" (R121, I2). -/
def SBox.ofList? (l : List Nibble) : Option SBox :=
  if SBox.IsPermutation ⟨l⟩ then some ⟨l⟩ else none

/-- The OPEN latencies, in clock cycles (R7, R250; log 19). -/
structure Latency where
  unit   : Nat   -- L_UNIT
  keyexp : Nat   -- L_KEYEXP
  cipher : Nat   -- L_CIPHER
  deriving DecidableEq, Repr

end Sys2Proof
end

