-- ==== Sys2Proof/Syntax.lean ====
section
/-! DEFINITION. The commands of spec/opcode_table.json, the registers of the window and the host's requests, as syntax (10_state.md R22, 30_encoding.md R71, R74). -/

namespace Sys2Proof

/-- The eleven commands, one constructor per row of the opcode table (R74). A command has no operand field: its operands come from registers (R72, R75). -/
inductive Instr where
  | gfmul | sub | isub | shr | addk | mixc | imixc | rotsub | keyexp | enc | dec
  deriving DecidableEq, Repr

/-- The nine registers of the window, under the spec's names (R22). -/
inductive Reg where
  | ctrl | status | key | dinA | dinB | result | rk0 | rk1 | rk2
  deriving DecidableEq, Repr

/-- A host transaction: a read at an offset, or a write of a word at an offset (R10, R52, R53). -/
inductive Request where
  | read (off : Offset)
  | write (off : Offset) (v : BusWord)
  deriving DecidableEq, Repr

end Sys2Proof
end

