-- ==== Sys2Proof/WellFormed.lean ====
section
/-! DEFINITION. What the spec requires of the encoded forms and the parameters. An `Instr` itself carries no field (R72), so every constructor is a well-formed command and there is no check on it. -/

namespace Sys2Proof

/-- A command word's reserved bits [31:4] "must be 0" (R72). -/
def commandWordWf (v : BusWord) : Bool := v.extractLsb' 4 28 == 0#28

/-- In a request vector `wdata` is "0 in a read request" (R71). -/
def requestVectorWf (q : RequestVector) : Bool := q.getLsbD 38 || q.extractLsb' 0 32 == 0#32

/-- The table is a permutation of 0..15 (R121). -/
def sboxWf (T : SBox) : Bool := decide T.IsPermutation

/-- Each latency is "at least 1" (R7, R250). -/
def latencyWf (L : Latency) : Bool := decide (1 ≤ L.unit) && decide (1 ≤ L.keyexp) && decide (1 ≤ L.cipher)

/-- `BASE` is "aligned to 64 bytes" (R64). -/
def baseWf (base : Nat) : Bool := base % 64 == 0

end Sys2Proof
end

