-- ==== Sys2Proof/Decode.lean ====
section
/-! DEFINITION. Decoding and encoding: command words (30_encoding.md R72 to R76, R80), window offsets (10_state.md R22, 20_memory.md R58), request vectors (R71) and the host notation (R78, R79). -/

namespace Sys2Proof

/-- One row of the opcode table: a word w is the row's command when `w &&& mask = pattern` (R74, R80). -/
structure OpcodeRow where
  mask    : BusWord
  pattern : BusWord
  instr   : Instr
  deriving DecidableEq, Repr

/-- The opcode table. "The mask is 0xFFFFFFFF for every row, so the match value is the whole command word." (R74) -/
def opcodeTable : List OpcodeRow :=
  [ ⟨0xFFFFFFFF#32, 0x00000001#32, .gfmul⟩,
    ⟨0xFFFFFFFF#32, 0x00000002#32, .sub⟩,
    ⟨0xFFFFFFFF#32, 0x00000003#32, .isub⟩,
    ⟨0xFFFFFFFF#32, 0x00000004#32, .shr⟩,
    ⟨0xFFFFFFFF#32, 0x00000005#32, .addk⟩,
    ⟨0xFFFFFFFF#32, 0x00000006#32, .mixc⟩,
    ⟨0xFFFFFFFF#32, 0x00000007#32, .imixc⟩,
    ⟨0xFFFFFFFF#32, 0x00000008#32, .rotsub⟩,
    ⟨0xFFFFFFFF#32, 0x00000009#32, .keyexp⟩,
    ⟨0xFFFFFFFF#32, 0x0000000A#32, .enc⟩,
    ⟨0xFFFFFFFF#32, 0x0000000B#32, .dec⟩ ]

/-- The word v is the command of row r. -/
def OpcodeRow.selects (r : OpcodeRow) (v : BusWord) : Bool := v &&& r.mask == r.pattern

/-- What a command word is: "each of the 2^32 command words is either a bus error, a reserved OP or exactly one command" (R73). -/
inductive Decoded where
  | command (i : Instr)
  | reservedOp (op : BitVec 4)
  | illegalWord
  deriving DecidableEq, Repr

/-- The OP field of a command word (R72). -/
def opField (v : BusWord) : BitVec 4 := v.extractLsb' 0 4

/-- Decoding of a command word (R73, R76): bits [31:4] not zero make it illegal; otherwise the opcode table's row for it, and "a decoder that finds no row for an OP reports BADOP" (R80). -/
def decodeCommand (v : BusWord) : Decoded :=
  if commandWordWf v then
    match opcodeTable.find? (·.selects v) with
    | some r => .command r.instr
    | none   => .reservedOp (opField v)
  else .illegalWord

/-- The command word of a command, from the table of R74. -/
def encode : Instr → BusWord
  | .gfmul  => 0x00000001#32
  | .sub    => 0x00000002#32
  | .isub   => 0x00000003#32
  | .shr    => 0x00000004#32
  | .addk   => 0x00000005#32
  | .mixc   => 0x00000006#32
  | .imixc  => 0x00000007#32
  | .rotsub => 0x00000008#32
  | .keyexp => 0x00000009#32
  | .enc    => 0x0000000A#32
  | .dec    => 0x0000000B#32

/-- The 4-bit opcode of a command: the OP field of its word (R72, R74). -/
def opcode (i : Instr) : BitVec 4 := opField (encode i)

/-- The instruction the decoder reads from a table row's bits. A command word is one 32-bit bus word with bit i of the bus being bit i of the word (R59), so the word is w itself; bits above `nbits` are 0, and a number wider than the 32 bits of a command word is none. -/
def decodeTableWord (nbits w : Nat) : Option Instr :=
  if w % 2 ^ nbits < 2 ^ 32 then
    match decodeCommand (BitVec.ofNat 32 (w % 2 ^ nbits)) with
    | .command i    => some i
    | .reservedOp _ => none
    | .illegalWord  => none
  else none

/-- The byte offset of a register (R22). -/
def Reg.offset : Reg → Offset
  | .ctrl   => 0x00#6
  | .status => 0x04#6
  | .key    => 0x08#6
  | .dinA   => 0x0C#6
  | .dinB   => 0x10#6
  | .result => 0x14#6
  | .rk0    => 0x18#6
  | .rk1    => 0x1C#6
  | .rk2    => 0x20#6

/-- The register at an offset. A misaligned offset and the reserved offsets 0x24 to 0x3C name none (R22, R58). -/
def regAt? (off : Offset) : Option Reg :=
  if off.extractLsb' 0 2 != 0#2 then none
  else match off.toNat with
    | 0x00 => some .ctrl
    | 0x04 => some .status
    | 0x08 => some .key
    | 0x0C => some .dinA
    | 0x10 => some .dinB
    | 0x14 => some .result
    | 0x18 => some .rk0
    | 0x1C => some .rk1
    | 0x20 => some .rk2
    | _    => none

/-- The request vector of a request: q[38] = we, q[37:32] = addr, q[31:0] = wdata, 0 in a read (R71). -/
def encodeRequest : Request → RequestVector
  | .read off    => 0#1 ++ off ++ 0#32
  | .write off v => 1#1 ++ off ++ v

/-- The request on the ports `we`, `addr`, `wdata`. `wdata` is "meaningful when req = 1 and we = 1" (R66), so a read ignores it. -/
def requestOfPorts (we : Bool) (addr : Offset) (wdata : BusWord) : Request :=
  if we then .write addr wdata else .read addr

/-- The request of a request vector, for every one of the 2^39 vectors (R71; log 15). -/
def decodeRequest (q : RequestVector) : Request :=
  requestOfPorts (q.getLsbD 38) (q.extractLsb' 32 6) (q.extractLsb' 0 32)

/-- The offset the CORE sees of an address: bits [5:0] of address - BASE (R64; log 17). -/
def windowOffset (base address : Nat) : Offset := BitVec.ofNat 6 (address - base)

/-- Host notation `rd REG` (R78). -/
def rd (r : Reg) : Request := .read r.offset

/-- Host notation `wr REG, imm32` (R78). -/
def wr (r : Reg) (v : BusWord) : Request := .write r.offset v

/-- Host notation `cmd MNEM`, that is `wr CTRL, OP(MNEM)` (R78). -/
def cmd (i : Instr) : Request := wr .ctrl (encode i)

/-- Pseudo-instruction `check` (R79). -/
def check : Request := rd .status

/-- Pseudo-instruction `poll` with n + 1 iterations. Each is one read of STATUS, and how many there are is the host's own branch on `pollAgain` (R79). -/
def poll (n : Nat) : List Request := List.replicate (n + 1) (rd .status)

/-- The host's test in `poll`: "if rdata[0] = 1 go to L" (R79). -/
def pollAgain (rdata : BusWord) : Bool := rdata.getLsbD 0

/-- Pseudo-instruction `run MNEM`: `cmd MNEM`, then `poll` (R79). -/
def run (i : Instr) (n : Nat) : List Request := cmd i :: poll n

end Sys2Proof
end

