-- ==== Sys2Proof/Machine/Tables.lean ====
section
/-! DEFINITION. The configured parameters and fixed constants: the default S-box (41_substitution.md R120), the reference latencies (70_reset_and_hazards.md R250) and the key-schedule constants (00_scope.md R6). -/

namespace Sys2Proof.Machine

/-- The default S-box of R120, which the spec marks as taken from general knowledge (PRESUMED, log 8). -/
def defaultSbox : SBox :=
  ⟨[0x9#4, 0x4#4, 0xA#4, 0xB#4, 0xD#4, 0x1#4, 0x8#4, 0x5#4,
    0x6#4, 0x2#4, 0x0#4, 0x3#4, 0xC#4, 0xE#4, 0xF#4, 0x7#4]⟩

/-- The reference latencies, one cycle per phase (R250). No transaction-level definition uses them. -/
def referenceLatency : Latency := { unit := 1, keyexp := 2, cipher := 3 }

/-- `RCON1` (R6, 43_key_schedule.md R162). -/
def rcon1 : Byte := 0x80#8

/-- `RCON2` (R6, R162). -/
def rcon2 : Byte := 0x30#8

/-- A latency for each command (R250). -/
def latencyOf (L : Latency) : Instr → Nat
  | .gfmul => L.unit
  | .sub => L.unit
  | .isub => L.unit
  | .shr => L.unit
  | .addk => L.unit
  | .mixc => L.unit
  | .imixc => L.unit
  | .rotsub => L.unit
  | .keyexp => L.keyexp
  | .enc => L.cipher
  | .dec => L.cipher

end Sys2Proof.Machine
end

