-- ==== Sys2Proof/Machine/State.lean ====
section
/-! DEFINITION. Everything the spec gives the CORE as state (10_state.md), the host's stream of steps, and reset (70_reset_and_hazards.md R230). -/

namespace Sys2Proof.Machine

/-- A state vector `[s0, s1, s2, s3]` of four nibbles (00_scope.md R12). -/
structure StateVec where
  s0 : Nibble
  s1 : Nibble
  s2 : Nibble
  s3 : Nibble
  deriving DecidableEq, Repr

/-- The six bytes of the round-key store, w0 .. w5 (R36). -/
structure KeyStore where
  w0 : Byte
  w1 : Byte
  w2 : Byte
  w3 : Byte
  w4 : Byte
  w5 : Byte
  deriving DecidableEq, Repr

/-- The pending command PEND: the opcode and the snapshots of DIN_A, DIN_B and KEY at issue (R38). The opcode is held as the command it encodes: no reserved opcode is ever accepted (log 7). -/
structure Pending where
  op : Instr
  a  : Block
  b  : Block
  k  : Block
  deriving DecidableEq, Repr

/-- The orchestrator's phases (44_cipher_core.md R181), and idle (R230). -/
inductive Phase where
  | idle | ew | e1 | e2 | dw | d1 | d2 | k1 | k2 | u
  deriving DecidableEq, Repr

/-- The orchestrator's registers: the phase to run next, the 16-bit state-vector register and the cycle counter (R39). The counter's width is not given (log 13). -/
structure Orch where
  phase  : Phase
  svec   : StateVec
  cycles : Nat
  deriving DecidableEq, Repr

/-- The idle orchestrator. "no value is observable" (R230): the zeros are the model's choice (DESIGN CHOICE, log 10). -/
def Orch.idle : Orch := { phase := .idle, svec := ⟨0#4, 0#4, 0#4, 0#4⟩, cycles := 0 }

/-- A step of the transaction-level machine (20_memory.md R50): `HostRead` or `HostWrite`, `Complete`, `Reset`. -/
inductive Input where
  | host (r : Request)
  | complete
  | reset
  deriving DecidableEq, Repr

/-- The response to a transaction: ERROR or OKAY, and the read data, which is 0 for an ERROR and for a write (R54, R66). -/
structure Response where
  err   : Bool
  rdata : BusWord
  deriving DecidableEq, Repr

/-- The state of the CORE. CTRL stores nothing (R27); BUSY is `pend` being present (R29, R38; log 6); RK0 to RK2 are views of `w` (R37). `sbox` is a constant of the CORE, not architectural state (R20, R40); it is a field so that every step takes the parameter as an argument (R7; DESIGN CHOICE, log 9). -/
structure State where
  key     : Block                -- KEY (R23)
  dinA    : Block                -- DIN_A (R24)
  dinB    : Block                -- DIN_B (R25)
  result  : Block                -- RESULT (R26)
  done    : Bool                 -- STATUS.DONE (R30)
  kv      : Bool                 -- STATUS.KV (R31)
  err     : Bool                 -- STATUS.ERR (R32)
  errCode : BitVec 4             -- STATUS.ERRCODE (R33)
  lastOp  : BitVec 4             -- STATUS.LASTOP (R34)
  w       : KeyStore             -- W[0] .. W[5] (R36)
  pend    : Option Pending       -- PEND, and BUSY (R38, R29)
  orch    : Orch                 -- the orchestrator's registers (R39)
  sbox    : SBox                 -- SBOX, the parameter this CORE is built with; no step writes it (R7, R40, R120; log 9)
  inputs  : List Input           -- the model's own: the steps still to come, first first (R50; log 1)
  resp    : Option Response      -- the model's own: the response to the last transaction (R54; log 4)
  deriving DecidableEq, Repr

/-- Why a step stops the machine. Nothing does: the CORE has no traps (60_exceptions.md R209), a command error is recorded in STATUS (R201) and a bus error is a response (R205); the machine goes on after each (log 20). -/
inductive Fault where
  deriving DecidableEq, Repr

/-- Why the model gives a command no meaning. -/
inductive Refusal where
  /-- Raised by `exec` alone, for a command whose meaning is not written yet. Safe: nothing is claimed of it. No arm of `exec` raises it. -/
  | notModelled (mnemonic : String)
  deriving DecidableEq, Repr

/-- The CORE with the default table of R120 (log 8), right after reset (R230). Every register the spec gives is at the spec's value; the idle orchestrator's values, the empty host stream and the absent response are the model's (log 10, log 1, log 4). -/
def State.reset : State :=
  { key := 0#16, dinA := 0#16, dinB := 0#16, result := 0#16,
    done := false, kv := false, err := false, errCode := 0#4, lastOp := 0#4,
    w := ⟨0#8, 0#8, 0#8, 0#8, 0#8, 0#8⟩,
    pend := none, orch := Orch.idle, sbox := defaultSbox, inputs := [], resp := none }

/-- A CORE built with the table T, right after reset: the tables are "constants, unaffected" (R230, R40). -/
def State.resetWith (T : SBox) : State := { State.reset with sbox := T }

/-- A CORE built with a proposed table, right after reset. A table that is not a permutation is refused: "it is not a configuration of this hardware" (41_substitution.md R121, 93_implementation_defined.md I2). -/
def State.configured? (l : List Nibble) : Option State := (SBox.ofList? l).map State.resetWith

end Sys2Proof.Machine
end

