-- ==== Sys2Proof/Machine/Flags.lean ====
section
/-! DEFINITION. The STATUS register: its fields, the word a read returns, and what each step writes in it (10_state.md R28 to R35, R41). -/

namespace Sys2Proof.Machine

/-- STATUS.BUSY: a command is in flight, that is, PEND holds one (R29, R38). -/
def State.busy (s : State) : Bool := s.pend.isSome

/-- The causes of a command error (R33, 60_exceptions.md R202). -/
inductive CmdErrorCause where
  | badOp | noKey | range
  deriving DecidableEq, Repr

/-- The ERRCODE value of a cause (R33). -/
def errorCode : CmdErrorCause → BitVec 4
  | .badOp => 1#4
  | .noKey => 2#4
  | .range => 3#4

/-- ERRCODE NONE, "no rejection" (R33). -/
def errorCodeNone : BitVec 4 := 0#4

/-- The word a read of STATUS returns: `zext_32({LASTOP, ERRCODE, ERR, KV, DONE, BUSY})` (R28, 20_memory.md R52). -/
def statusWord (s : State) : BusWord :=
  (s.lastOp ++ s.errCode ++ BitVec.ofBool s.err ++ BitVec.ofBool s.kv ++ BitVec.ofBool s.done ++ BitVec.ofBool s.busy).setWidth 32

/-- What every command issue writes, accepted or rejected: LASTOP and DONE (R30, R34, R55). -/
def flagsIssued (op : BitVec 4) (s : State) : State := { s with lastOp := op, done := false }

/-- What a rejection writes: ERR and ERRCODE (R32, R33, R201). -/
def flagsRejected (cause : CmdErrorCause) (s : State) : State := { s with err := true, errCode := errorCode cause }

/-- What an acceptance writes: ERR and ERRCODE; BUSY is set with PEND (R32, R33, R55). -/
def flagsAccepted (s : State) : State := { s with err := false, errCode := errorCodeNone }

/-- What a completion writes: DONE; BUSY is cleared with PEND (R30, R56). -/
def flagsCompleted (s : State) : State := { s with done := true }

end Sys2Proof.Machine
end

