-- ==== Sys2Proof/Machine/Operands.lean ====
section
/-! DEFINITION. Operand assembly (30_encoding.md R75): the fields of a block, the layout maps between a block and a state vector (42_state_transforms.md R140, R141), the views of the round-key store (10_state.md R37), and the operand range checks (20_memory.md R55). -/

namespace Sys2Proof.Machine

/-- Block nibble `N0 = x[15:12]` (00_scope.md R8). -/
def nib0 (x : Block) : Nibble := x.extractLsb' 12 4

/-- Block nibble `N1 = x[11:8]` (R8). -/
def nib1 (x : Block) : Nibble := x.extractLsb' 8 4

/-- Block nibble `N2 = x[7:4]` (R8). -/
def nib2 (x : Block) : Nibble := x.extractLsb' 4 4

/-- Block nibble `N3 = x[3:0]` (R8). -/
def nib3 (x : Block) : Nibble := x.extractLsb' 0 4

/-- `{n0, n1, n2, n3}`, the first in the most significant place (R9). -/
def packNibbles (n0 n1 n2 n3 : Nibble) : Block := n0 ++ n1 ++ n2 ++ n3

/-- `hi = x[15:8]` (R8). -/
def hiByte (x : Block) : Byte := x.extractLsb' 8 8

/-- `lo = x[7:0]` (R8). -/
def loByte (x : Block) : Byte := x.extractLsb' 0 8

/-- `{hi, lo}` (R9). -/
def packBytes (hi lo : Byte) : Block := hi ++ lo

/-- The high nibble of a byte, `b[7:4]`. -/
def hiNibble (b : Byte) : Nibble := b.extractLsb' 4 4

/-- The low nibble of a byte, `b[3:0]`. -/
def loNibble (b : Byte) : Nibble := b.extractLsb' 0 4

/-- `{hi, lo}` of two nibbles. -/
def packNibblePair (hi lo : Nibble) : Byte := hi ++ lo

/-- `intToVec(x) = [x[15:12], x[7:4], x[11:8], x[3:0]]` (R140). -/
def intToVec (x : Block) : StateVec :=
  { s0 := nib0 x, s1 := nib2 x, s2 := nib1 x, s3 := nib3 x }

/-- `vecToInt(s) = {s[0], s[2], s[1], s[3]}` (R141). -/
def vecToInt (s : StateVec) : Block := packNibbles s.s0 s.s2 s.s1 s.s3

/-- `RK0 = {W[0], W[1]}` (10_state.md R37, 43_key_schedule.md R163). -/
def KeyStore.rk0 (w : KeyStore) : Block := packBytes w.w0 w.w1

/-- `RK1 = {W[2], W[3]}` (R37, R163). -/
def KeyStore.rk1 (w : KeyStore) : Block := packBytes w.w2 w.w3

/-- `RK2 = {W[4], W[5]}` (R37, R163). -/
def KeyStore.rk2 (w : KeyStore) : Block := packBytes w.w4 w.w5

/-- "zext_16" of a nibble (R75). -/
def zextNibble (n : Nibble) : Block := n.setWidth 16

/-- "zext_16" of a byte (R75). -/
def zextByte (b : Byte) : Block := b.setWidth 16

/-- "zext_32" of a 16-bit register (R23). -/
def zextBlock (x : Block) : BusWord := x.setWidth 32

/-- The operand registers do not both hold a nibble: GFMUL's range condition (R55, R202). -/
def notNibbles (s : State) : Bool :=
  s.dinA.extractLsb' 4 12 != 0#12 || s.dinB.extractLsb' 4 12 != 0#12

/-- DIN_A does not hold a byte: ROTSUB's range condition (R55, R202). -/
def notByte (s : State) : Bool := s.dinA.extractLsb' 8 8 != 0#8

/-- A value "requiring more than 16 bits": `v[31:16] != 0` (60_exceptions.md R206). -/
def tooWide (v : BusWord) : Bool := v.extractLsb' 16 16 != 0#16

/-- The 16 bits an operand register takes of a write: `v[15:0]` (R23 to R25). -/
def writtenBlock (v : BusWord) : Block := v.extractLsb' 0 16

end Sys2Proof.Machine
end

