-- ==== Sys2Proof/Machine/Ops.lean ====
section
/-! DEFINITION. The shared operations: the two kinds of error (60_exceptions.md R201, R205), issue and completion of a command (20_memory.md R55, R56), and the life of a command over them. -/

namespace Sys2Proof.Machine

/-- The OKAY response carrying a word; a write's carries 0 (20_memory.md R54, R66). -/
def okay (rdata : BusWord) (s : State) : State := { s with resp := some { err := false, rdata := rdata } }

/-- `raise BusError()`: the ERROR response with read data 0, and "no state change" (R205). -/
def busError (s : State) : State := { s with resp := some { err := true, rdata := 0#32 } }

/-- `raise CmdError(code)` within `Issue(op)`: STATUS records it, nothing else changes, and "the CTRL write's bus response is OKAY" (R201). -/
def rejectCommand (op : BitVec 4) (cause : CmdErrorCause) (s : State) : State :=
  okay 0#32 (flagsRejected cause (flagsIssued op s))

/-- The first phase of each command (44_cipher_core.md R181). -/
def firstPhase : Instr → Phase
  | .gfmul => .u
  | .sub => .u
  | .isub => .u
  | .shr => .u
  | .addk => .u
  | .mixc => .u
  | .imixc => .u
  | .rotsub => .u
  | .keyexp => .k1
  | .enc => .ew
  | .dec => .dw

/-- The orchestrator at the issue of a command: its first phase, the block of DIN_A in the state-vector register, no cycle counted (R39, R181; log 11). -/
def orchStart (p : Pending) : Orch := { phase := firstPhase p.op, svec := intToVec p.a, cycles := 0 }

/-- The snapshot `Issue` takes: `PEND <- (op, DIN_A, DIN_B, KEY)` (R55). -/
def snapshot (i : Instr) (s : State) : Pending := { op := i, a := s.dinA, b := s.dinB, k := s.key }

/-- The acceptance of a command (R55). -/
def acceptCommand (i : Instr) (s : State) : State :=
  okay 0#32 { flagsAccepted (flagsIssued (opcode i) s) with pend := some (snapshot i s), orch := orchStart (snapshot i s) }

/-- `Issue` of a command, given the first cause that rejects it, if any (R55). -/
def issueCommand (i : Instr) (cause : Option CmdErrorCause) (s : State) : State :=
  match cause with
  | some c => rejectCommand (opcode i) c s
  | none   => acceptCommand i s

/-- What every completion does: `BUSY <- 0; DONE <- 1` (R56), and the orchestrator is idle (log 11). -/
def endCommand (s : State) : State := { flagsCompleted s with pend := none, orch := Orch.idle }

/-- Completion of a command that produces a result: `RESULT <- r` (R26, R56). -/
def completeResult (r : Block) (s : State) : State := { endCommand s with result := r }

/-- Completion of KEYEXP: `W[0..5] <- w; KV <- 1`, all at once (43_key_schedule.md R166). -/
def completeKeys (w : KeyStore) (s : State) : State := { endCommand s with w := w, kv := true }

/-- ENC's and DEC's condition at issue: NOKEY while KV = 0 (R55, R202). -/
def noKeyCause (s : State) : Option CmdErrorCause := if s.kv then none else some .noKey

/-- GFMUL's condition at issue (R55, R202). -/
def nibbleRangeCause (s : State) : Option CmdErrorCause := if notNibbles s then some .range else none

/-- ROTSUB's condition at issue (R55, R202). -/
def byteRangeCause (s : State) : Option CmdErrorCause := if notByte s then some .range else none

/-- The next step of command i's life (log 5). With nothing in flight, i is issued (R55). While i itself is in flight, i completes, from PEND (R56). While another command is in flight, i is turned away with a bus error (R207). A CTRL write while BUSY = 1 is refused before this is reached, whatever is in flight (Machine/Bus.lean). -/
def runCommand (i : Instr) (cause : Option CmdErrorCause) (effect : Pending → State → State) (s : State) : State :=
  match s.pend with
  | none   => issueCommand i cause s
  | some p => if p.op = i then effect p s else busError s

end Sys2Proof.Machine
end

