-- ==== Sys2Proof/Machine/Substitution.lean ====
section
/-! DEFINITION. Unit U2, nibble substitution, and SUB and ISUB (41_substitution.md). -/

namespace Sys2Proof.Machine

/-- `SBOX[n]` (R120). -/
def sboxAt (T : SBox) (n : Nibble) : Nibble := T.entries.getD n.toNat 0#4

/-- `SBOX_INV[v]`, "the unique n with SBOX[n] = v" (R121). -/
def sboxInvAt (T : SBox) (v : Nibble) : Nibble := BitVec.ofNat 4 (T.entries.idxOf v)

/-- A table applied to each element (R124). -/
def mapNibbles (f : Nibble → Nibble) (s : StateVec) : StateVec :=
  { s0 := f s.s0, s1 := f s.s1, s2 := f s.s2, s3 := f s.s3 }

/-- `substituteNibbles(SBOX, s)` (R124). -/
def substituteNibbles (T : SBox) (s : StateVec) : StateVec := mapNibbles (sboxAt T) s

/-- `substituteNibbles(SBOX_INV, s)` (R124). -/
def substituteNibblesInv (T : SBox) (s : StateVec) : StateVec := mapNibbles (sboxInvAt T) s

/-- A table applied to each block nibble: the block-level form of substitution (R124). -/
def mapBlock (f : Nibble → Nibble) (x : Block) : Block :=
  packNibbles (f (nib0 x)) (f (nib1 x)) (f (nib2 x)) (f (nib3 x))

/-- `SubBlock(SBOX, x)` (R124). -/
def subBlock (T : SBox) (x : Block) : Block := mapBlock (sboxAt T) x

/-- `SubBlock(SBOX_INV, x)` (R124). -/
def subBlockInv (T : SBox) (x : Block) : Block := mapBlock (sboxInvAt T) x

/-- SUB's result (R125). -/
def subResult (T : SBox) (p : Pending) : Block := vecToInt (substituteNibbles T (intToVec p.a))

/-- ISUB's result (R126). -/
def isubResult (T : SBox) (p : Pending) : Block := vecToInt (substituteNibblesInv T (intToVec p.a))

/-- SUB, forward nibble substitution of a block (R125). -/
def execSub (s : State) : Host.Outcome State Fault Refusal :=
  .next (runCommand .sub none (fun p => completeResult (subResult s.sbox p)) s)

/-- ISUB, inverse nibble substitution of a block (R126). -/
def execIsub (s : State) : Host.Outcome State Fault Refusal :=
  .next (runCommand .isub none (fun p => completeResult (isubResult s.sbox p)) s)

end Sys2Proof.Machine
end

