-- ==== Sys2Proof/Machine/KeySchedule.lean ====
section
/-! DEFINITION. Unit U6, the key schedule expander, and ROTSUB and KEYEXP (43_key_schedule.md). -/

namespace Sys2Proof.Machine

/-- `rotSub(b) = {SBOX[b[3:0]], SBOX[b[7:4]]}` (R160). -/
def rotSub (T : SBox) (b : Byte) : Byte := packNibblePair (sboxAt T (loNibble b)) (sboxAt T (hiNibble b))

/-- `w2 = w0 xor 0x80 xor rotSub(w1); w3 = w2 xor w1` (R162): phase K1's work, {w2, w3} of {w0, w1}. -/
def expandFirst (T : SBox) (w01 : Block) : Block :=
  let w2 := hiByte w01 ^^^ rcon1 ^^^ rotSub T (loByte w01)
  packBytes w2 (w2 ^^^ loByte w01)

/-- `w4 = w2 xor 0x30 xor rotSub(w3); w5 = w4 xor w3` (R162): phase K2's work, {w4, w5} of {w2, w3}. -/
def expandSecond (T : SBox) (w23 : Block) : Block :=
  let w4 := hiByte w23 ^^^ rcon2 ^^^ rotSub T (loByte w23)
  packBytes w4 (w4 ^^^ loByte w23)

/-- The store holding three round keys (R163). -/
def storeOf (rk0 rk1 rk2 : Block) : KeyStore :=
  { w0 := hiByte rk0, w1 := loByte rk0, w2 := hiByte rk1, w3 := loByte rk1, w4 := hiByte rk2, w5 := loByte rk2 }

/-- `expandKey(key)` (R164). -/
def expandKey (T : SBox) (k : Block) : KeyStore :=
  let w0 := hiByte k
  let w1 := loByte k
  let w2 := w0 ^^^ rcon1 ^^^ rotSub T w1
  let w3 := w2 ^^^ w1
  let w4 := w2 ^^^ rcon2 ^^^ rotSub T w3
  let w5 := w4 ^^^ w3
  { w0 := w0, w1 := w1, w2 := w2, w3 := w3, w4 := w4, w5 := w5 }

/-- ROTSUB's result: `zext_16(rotSub(PEND.a[7:0]))` (R165). -/
def rotsubResult (T : SBox) (p : Pending) : Block := zextByte (rotSub T (loByte p.a))

/-- ROTSUB, the key schedule's helper as a command (R165). -/
def execRotsub (s : State) : Host.Outcome State Fault Refusal :=
  .next (runCommand .rotsub (byteRangeCause s) (fun p => completeResult (rotsubResult s.sbox p)) s)

/-- KEYEXP, key expansion (R166). -/
def execKeyexp (s : State) : Host.Outcome State Fault Refusal :=
  .next (runCommand .keyexp none (fun p => completeKeys (expandKey s.sbox p.k)) s)

end Sys2Proof.Machine
end

