-- ==== Sys2Proof/Machine/Field.lean ====
section
/-! DEFINITION. Unit U1, the GF(2^4) multiplier, and GFMUL (40_field_arithmetic.md). -/

namespace Sys2Proof.Machine

/-- One round of R101's loop: bit i of b decides whether t is added to the accumulator, then t is shifted and folded with 0b10011. -/
def gmulRound (b : Nibble) (pt : Nibble × BitVec 5) (i : Nat) : Nibble × BitVec 5 :=
  let p := if b.getLsbD i then pt.1 ^^^ pt.2.setWidth 4 else pt.1
  let t := pt.2 <<< 1
  (p, if t.getLsbD 4 then t ^^^ 0b10011#5 else t)

/-- `gmul(a, b)` (R101). -/
def gmul (a b : Nibble) : Nibble := ([0, 1, 2, 3].foldl (gmulRound b) (0#4, a.setWidth 5)).1

/-- The partial product p_k: the xor over i + j = k of `a[i] & b[j]` (R102). -/
def partialProduct (a b : Nibble) (k : Nat) : Bool :=
  [0, 1, 2, 3].foldl (fun acc i => acc ^^ (decide (i ≤ k) && a.getLsbD i && b.getLsbD (k - i))) false

/-- The combinational form of U1 (R102). -/
def gmulCombinational (a b : Nibble) : Nibble :=
  let p := partialProduct a b
  BitVec.ofBool (p 3 ^^ p 6) ++ BitVec.ofBool (p 2 ^^ p 5 ^^ p 6) ++ BitVec.ofBool (p 1 ^^ p 4 ^^ p 5) ++ BitVec.ofBool (p 0 ^^ p 4)

/-- The constant multiplier ×2 (R107). -/
def times2 (a : Nibble) : Nibble :=
  BitVec.ofBool (a.getLsbD 2) ++ BitVec.ofBool (a.getLsbD 1) ++ BitVec.ofBool (a.getLsbD 0 ^^ a.getLsbD 3) ++ BitVec.ofBool (a.getLsbD 3)

/-- The constant multiplier ×4 (R107). -/
def times4 (a : Nibble) : Nibble :=
  BitVec.ofBool (a.getLsbD 1) ++ BitVec.ofBool (a.getLsbD 0 ^^ a.getLsbD 3) ++ BitVec.ofBool (a.getLsbD 2 ^^ a.getLsbD 3) ++ BitVec.ofBool (a.getLsbD 2)

/-- The constant multiplier ×9 (R107). -/
def times9 (a : Nibble) : Nibble :=
  BitVec.ofBool (a.getLsbD 0) ++ BitVec.ofBool (a.getLsbD 3) ++ BitVec.ofBool (a.getLsbD 2) ++ BitVec.ofBool (a.getLsbD 0 ^^ a.getLsbD 1)

/-- GFMUL's result: `zext_16(gmul(PEND.a[3:0], PEND.b[3:0]))` (R105). -/
def gfmulResult (p : Pending) : Block := zextNibble (gmul (nib3 p.a) (nib3 p.b))

/-- GFMUL, the field product of two nibbles (R105). -/
def execGfmul (s : State) : Host.Outcome State Fault Refusal :=
  .next (runCommand .gfmul (nibbleRangeCause s) (fun p => completeResult (gfmulResult p)) s)

end Sys2Proof.Machine
end

