-- ==== Sys2Proof/Machine/Transforms.lean ====
section
/-! DEFINITION. Units U3, U4 and U5: row shift, key addition and column mixing, and SHR, ADDK, MIXC and IMIXC (42_state_transforms.md). -/

namespace Sys2Proof.Machine

/-- `shiftRow(s) = [s[0], s[1], s[3], s[2]]` (R144). -/
def shiftRow (s : StateVec) : StateVec := { s0 := s.s0, s1 := s.s1, s2 := s.s3, s3 := s.s2 }

/-- `addRoundKey(keyState, state)`, the element-wise xor (R148). -/
def addRoundKey (t s : StateVec) : StateVec :=
  { s0 := s.s0 ^^^ t.s0, s1 := s.s1 ^^^ t.s1, s2 := s.s2 ^^^ t.s2, s3 := s.s3 ^^^ t.s3 }

/-- `mixColumns(s)` (R145). -/
def mixColumns (s : StateVec) : StateVec :=
  { s0 := s.s0 ^^^ gmul 4#4 s.s2
    s1 := s.s1 ^^^ gmul 4#4 s.s3
    s2 := s.s2 ^^^ gmul 4#4 s.s0
    s3 := s.s3 ^^^ gmul 4#4 s.s1 }

/-- `inverseMixColumns(s)` (R146). -/
def inverseMixColumns (s : StateVec) : StateVec :=
  { s0 := gmul 9#4 s.s0 ^^^ gmul 2#4 s.s2
    s1 := gmul 9#4 s.s1 ^^^ gmul 2#4 s.s3
    s2 := gmul 2#4 s.s0 ^^^ gmul 9#4 s.s2
    s3 := gmul 2#4 s.s1 ^^^ gmul 9#4 s.s3 }

/-- `ShiftRowBlock(x) = {N0, N3, N2, N1}` (R144). -/
def shiftRowBlock (x : Block) : Block := packNibbles (nib0 x) (nib3 x) (nib2 x) (nib1 x)

/-- `MixBlock(x)` (R145). -/
def mixBlock (x : Block) : Block :=
  packNibbles (nib0 x ^^^ gmul 4#4 (nib1 x)) (nib1 x ^^^ gmul 4#4 (nib0 x))
    (nib2 x ^^^ gmul 4#4 (nib3 x)) (nib3 x ^^^ gmul 4#4 (nib2 x))

/-- `InvMixBlock(x)` (R146). -/
def invMixBlock (x : Block) : Block :=
  packNibbles (gmul 9#4 (nib0 x) ^^^ gmul 2#4 (nib1 x)) (gmul 2#4 (nib0 x) ^^^ gmul 9#4 (nib1 x))
    (gmul 9#4 (nib2 x) ^^^ gmul 2#4 (nib3 x)) (gmul 2#4 (nib2 x) ^^^ gmul 9#4 (nib3 x))

/-- SHR's result (R147). -/
def shrResult (p : Pending) : Block := vecToInt (shiftRow (intToVec p.a))

/-- ADDK's result (R148). -/
def addkResult (p : Pending) : Block := vecToInt (addRoundKey (intToVec p.b) (intToVec p.a))

/-- MIXC's result (R149). -/
def mixcResult (p : Pending) : Block := vecToInt (mixColumns (intToVec p.a))

/-- IMIXC's result (R150). -/
def imixcResult (p : Pending) : Block := vecToInt (inverseMixColumns (intToVec p.a))

/-- SHR, the row shift of a block (R147). -/
def execShr (s : State) : Host.Outcome State Fault Refusal :=
  .next (runCommand .shr none (fun p => completeResult (shrResult p)) s)

/-- ADDK, the xor mixing layer (R148). -/
def execAddk (s : State) : Host.Outcome State Fault Refusal :=
  .next (runCommand .addk none (fun p => completeResult (addkResult p)) s)

/-- MIXC, the forward column mix of a block (R149). -/
def execMixc (s : State) : Host.Outcome State Fault Refusal :=
  .next (runCommand .mixc none (fun p => completeResult (mixcResult p)) s)

/-- IMIXC, the inverse column mix of a block (R150). -/
def execImixc (s : State) : Host.Outcome State Fault Refusal :=
  .next (runCommand .imixc none (fun p => completeResult (imixcResult p)) s)

end Sys2Proof.Machine
end

