-- ==== Sys2Proof/Machine/Cipher.lean ====
section
/-! DEFINITION. Unit U7's cipher: encryption and decryption of one block, and ENC and DEC (44_cipher_core.md). -/

namespace Sys2Proof.Machine

/-- `encrypt(p, W)` (R183). -/
def encrypt (T : SBox) (p : Block) (w : KeyStore) : Block :=
  let s := addRoundKey (intToVec w.rk0) (intToVec p)
  let s := substituteNibbles T s
  let s := shiftRow s
  let s := mixColumns s
  let s := addRoundKey (intToVec w.rk1) s
  let s := substituteNibbles T s
  let s := shiftRow s
  let s := addRoundKey (intToVec w.rk2) s
  vecToInt s

/-- `decrypt(c, W)` (R186). -/
def decrypt (T : SBox) (c : Block) (w : KeyStore) : Block :=
  let s := addRoundKey (intToVec w.rk2) (intToVec c)
  let s := shiftRow s
  let s := substituteNibblesInv T s
  let s := addRoundKey (intToVec w.rk1) s
  let s := inverseMixColumns s
  let s := shiftRow s
  let s := substituteNibblesInv T s
  let s := addRoundKey (intToVec w.rk0) s
  vecToInt s

/-- The block-level form of encryption (R184). -/
def encryptBlock (T : SBox) (p : Block) (w : KeyStore) : Block :=
  let x0 := p ^^^ w.rk0
  let x1 := mixBlock (shiftRowBlock (subBlock T x0)) ^^^ w.rk1
  shiftRowBlock (subBlock T x1) ^^^ w.rk2

/-- The block-level form of decryption (R186). -/
def decryptBlock (T : SBox) (c : Block) (w : KeyStore) : Block :=
  let y0 := c ^^^ w.rk2
  let y1 := invMixBlock (subBlockInv T (shiftRowBlock y0) ^^^ w.rk1)
  subBlockInv T (shiftRowBlock y1) ^^^ w.rk0

/-- ENC, encryption of one block: `RESULT <- encrypt(PEND.a, W)` (R185). -/
def execEnc (s : State) : Host.Outcome State Fault Refusal :=
  .next (runCommand .enc (noKeyCause s) (fun p => completeResult (encrypt s.sbox p.a s.w)) s)

/-- DEC, decryption of one block: `RESULT <- decrypt(PEND.a, W)` (R187). -/
def execDec (s : State) : Host.Outcome State Fault Refusal :=
  .next (runCommand .dec (noKeyCause s) (fun p => completeResult (decrypt s.sbox p.a s.w)) s)

end Sys2Proof.Machine
end

