-- ==== Sys2Proof/Machine/Bus.lean ====
section
/-! DEFINITION. The four kinds of step of the transaction-level machine (20_memory.md R50): host reads and writes, the completion step and reset. -/

namespace Sys2Proof.Machine

/-- The word a read of a register returns (10_state.md R22 to R28, R37; 20_memory.md R52). -/
def readWord (r : Reg) (s : State) : BusWord :=
  match r with
  | .ctrl   => 0#32
  | .status => statusWord s
  | .key    => zextBlock s.key
  | .dinA   => zextBlock s.dinA
  | .dinB   => zextBlock s.dinB
  | .result => zextBlock s.result
  | .rk0    => zextBlock s.w.rk0
  | .rk1    => zextBlock s.w.rk1
  | .rk2    => zextBlock s.w.rk2

/-- `MemRead(off, 4)` (R52): the word, or a bus error at an offset that names no register (R58). -/
def hostRead (off : Offset) (s : State) : State :=
  match regAt? off with
  | none   => busError s
  | some r => okay (readWord r s) s

/-- An accepted write of KEY: `KEY <- v[15:0]; KV <- 0` (R53, 10_state.md R23, R31). -/
def setKey (x : Block) (s : State) : State := { s with key := x, kv := false }

/-- An accepted write of DIN_A (R53, 10_state.md R24). -/
def setDinA (x : Block) (s : State) : State := { s with dinA := x }

/-- An accepted write of DIN_B (R53, 10_state.md R25). -/
def setDinB (x : Block) (s : State) : State := { s with dinB := x }

/-- A write to an operand register: a bus error if the value is wider than 16 bits or BUSY = 1, otherwise the register takes `v[15:0]` (R53). -/
def writeOperand (set : Block → State → State) (v : BusWord) (s : State) : State :=
  if tooWide v then busError s
  else if s.busy then busError s
  else okay 0#32 (set (writtenBlock v) s)

/-- A write to CTRL (R53, R73): a bus error if `v[31:4] != 0` or BUSY = 1, otherwise `Issue(v[3:0])` (R55). The command that the word decodes to runs; a reserved opcode is rejected with BADOP. -/
def writeCtrl (v : BusWord) (s : State) : Host.Outcome State Fault Refusal :=
  match decodeCommand v with
  | .illegalWord   => .next (busError s)
  | .reservedOp op => .next (if s.busy then busError s else rejectCommand op .badOp s)
  | .command i     => if s.busy then .next (busError s) else exec i s

/-- `MemWrite(off, 4, v)` (R53): by the register at the offset; a read-only register or an offset that names none is a bus error (R58, 60_exceptions.md R206). -/
def hostWrite (off : Offset) (v : BusWord) (s : State) : Host.Outcome State Fault Refusal :=
  match regAt? off with
  | none         => .next (busError s)
  | some .ctrl   => writeCtrl v s
  | some .status => .next (busError s)
  | some .key    => .next (writeOperand setKey v s)
  | some .dinA   => .next (writeOperand setDinA v s)
  | some .dinB   => .next (writeOperand setDinB v s)
  | some .result => .next (busError s)
  | some .rk0    => .next (busError s)
  | some .rk1    => .next (busError s)
  | some .rk2    => .next (busError s)

/-- One host transaction (R52, R53). -/
def transaction (r : Request) (s : State) : Host.Outcome State Fault Refusal :=
  match r with
  | .read off    => .next (hostRead off s)
  | .write off v => hostWrite off v s

/-- `Complete`, "enabled only while BUSY = 1" (R56): the command in flight runs its completion. A turn of the engine with nothing in flight changes nothing (log 3). -/
def completeStep (s : State) : Host.Outcome State Fault Refusal :=
  match s.pend with
  | none   => .next s
  | some p => exec p.op s

/-- `Reset` (R50, 70_reset_and_hazards.md R230, R232): every register takes its reset value, a command in flight is abandoned, and the S-box is unaffected (R40). The rest of the host's stream stays (log 16). -/
def resetStep (s : State) : State := { State.resetWith s.sbox with inputs := s.inputs }

/-- One step of the transaction-level machine (R50). -/
def act (e : Input) (s : State) : Host.Outcome State Fault Refusal :=
  match e with
  | .host r   => transaction r s
  | .complete => completeStep s
  | .reset    => .next (resetStep s)

/-- The next step to take, and the state with it taken off the stream. When the stream has run out, the engine has the turn: "while BUSY = 1, a Complete step occurs after finitely many other steps" (R50, R252; log 2). -/
def takeInput (s : State) : Input × State :=
  match s.inputs with
  | []        => (.complete, s)
  | e :: rest => (e, { s with inputs := rest })

/-- The number w, as `nbits` bits, as the 32-bit word a CTRL write carries. -/
def commandWordOf (nbits w : Nat) : BusWord := BitVec.ofNat 32 (w % 2 ^ nbits)

end Sys2Proof.Machine
end

