-- ==== Sys2Proof/Machine/Step.lean ====
section
/-! DEFINITION. The step of the transaction-level machine (20_memory.md R50), and how a command word is put before it. -/

namespace Sys2Proof.Machine

/-- One step: the next entry of the stream is taken and acted on (R50, R51). -/
def step (s : State) : Host.Outcome State Fault Refusal :=
  act (takeInput s).1 (takeInput s).2

/-- The CORE fetches nothing (R63); the host issues commands by writing CTRL (R55). The command word w is put at the head of the host's stream as a write of CTRL, so that the next step issues it (log 1). -/
def State.withFetchWord (s : State) (nbits w : Nat) : State :=
  { s with inputs := .host (wr .ctrl (commandWordOf nbits w)) :: s.inputs }

end Sys2Proof.Machine
end

