-- ==== Sys2Proof/Machine/Orchestrator.lean ====
section
/-! DEFINITION. Unit U7's phases (44_cipher_core.md R180, R181): the work of each, the order they run in, and the completion from the orchestrator's own registers (10_state.md R39). The transaction-level machine does not use this file; the cycle level does. -/

namespace Sys2Proof.Machine

/-- The phase after a phase, if it is not the last of its command (R181). -/
def nextPhase : Phase → Option Phase
  | .idle => none
  | .ew   => some .e1
  | .e1   => some .e2
  | .e2   => none
  | .dw   => some .d1
  | .d1   => some .d2
  | .d2   => none
  | .k1   => some .k2
  | .k2   => none
  | .u    => none

/-- A unit command's result, routed to its unit (R180). KEYEXP, ENC and DEC are not unit commands and never reach phase U; their operand block stands there. -/
def unitResult (T : SBox) (p : Pending) : Block :=
  match p.op with
  | .gfmul  => gfmulResult p
  | .sub    => subResult T p
  | .isub   => isubResult T p
  | .shr    => shrResult p
  | .addk   => addkResult p
  | .mixc   => mixcResult p
  | .imixc  => imixcResult p
  | .rotsub => rotsubResult T p
  | .keyexp => p.a
  | .enc    => p.a
  | .dec    => p.a

/-- The work of each phase on the state-vector register (R181). What the register holds after K1, after K2 and after U is the model's choice (DESIGN CHOICE, log 21): the spec says only that it "carries the block from one phase to the next". The model puts {w2, w3}, then {w4, w5}, and a unit's result in it, as `intToVec` of the 16 bits. -/
def phaseWork (T : SBox) (p : Pending) (w : KeyStore) : Phase → StateVec → StateVec
  | .idle, v => v
  | .ew, v => addRoundKey (intToVec w.rk0) v
  | .e1, v => addRoundKey (intToVec w.rk1) (mixColumns (shiftRow (substituteNibbles T v)))
  | .e2, v => addRoundKey (intToVec w.rk2) (shiftRow (substituteNibbles T v))
  | .dw, v => addRoundKey (intToVec w.rk2) v
  | .d1, v => inverseMixColumns (addRoundKey (intToVec w.rk1) (substituteNibblesInv T (shiftRow v)))
  | .d2, v => addRoundKey (intToVec w.rk0) (substituteNibblesInv T (shiftRow v))
  | .k1, _ => intToVec (expandFirst T p.k)
  | .k2, v => intToVec (expandSecond T (vecToInt v))
  | .u, _ => intToVec (unitResult T p)

/-- One clock edge of the orchestrator that does not complete the command: the current phase runs unless it is the last, which waits for the completion edge (log 12); the cycle counter counts. -/
def orchAdvance (T : SBox) (p : Pending) (w : KeyStore) (o : Orch) : Orch :=
  match nextPhase o.phase with
  | none    => { o with cycles := o.cycles + 1 }
  | some ph => { phase := ph, svec := phaseWork T p w o.phase o.svec, cycles := o.cycles + 1 }

/-- The orchestrator n edges after a command's issue (R181). -/
def orchAfter (T : SBox) (p : Pending) (w : KeyStore) : Nat → Orch
  | 0     => orchStart p
  | n + 1 => orchAdvance T p w (orchAfter T p w n)

/-- The state-vector register after the current phase and all later ones; no command has more than three phases (R181). -/
def orchFinish (T : SBox) (p : Pending) (w : KeyStore) (o : Orch) : StateVec :=
  let v := phaseWork T p w o.phase o.svec
  match nextPhase o.phase with
  | none => v
  | some ph =>
    let v := phaseWork T p w ph v
    match nextPhase ph with
    | none => v
    | some ph' => phaseWork T p w ph' v

/-- {w2, w3} at KEYEXP's completion: from the state-vector register once K1 has run, from the key before (R162, R181; log 21). -/
def orchRk1 (T : SBox) (p : Pending) (o : Orch) : Block :=
  if o.phase = .k2 then vecToInt o.svec else expandFirst T p.k

/-- The completion edge, from the orchestrator's registers: the remaining phases run, and the result goes to RESULT, or to the round-key store for KEYEXP (R181, 20_memory.md R56). -/
def orchComplete (s : State) : State :=
  match s.pend with
  | none => s
  | some p =>
    if p.op = .keyexp then completeKeys (storeOf p.k (orchRk1 s.sbox p s.orch) (vecToInt (orchFinish s.sbox p s.w s.orch))) s
    else completeResult (vecToInt (orchFinish s.sbox p s.w s.orch)) s

end Sys2Proof.Machine
end

