-- ==== Sys2Proof/Machine/Cycle.lean ====
section
/-! DEFINITION. The cycle-level interface (20_memory.md R66, R67, 70_reset_and_hazards.md R231, R250, R251): what one clock cycle does to the same State, for every latency, and which transaction-level steps it stands for (R68). -/

namespace Sys2Proof.Machine

/-- The input ports in one cycle (R66). `clk` is the cycle itself. -/
structure Ports where
  rst   : Bool
  req   : Bool
  we    : Bool
  addr  : Offset
  wdata : BusWord
  deriving DecidableEq, Repr

/-- The transaction presented on the ports (R66). -/
def Ports.request (q : Ports) : Request := requestOfPorts q.we q.addr q.wdata

/-- The output ports `err` and `rdata`: the response to this cycle's transaction, and 0 without one (R66). -/
def portsOut (s : State) : Response := s.resp.getD { err := false, rdata := 0#32 }

/-- The orchestrator's part of a rising edge with a command in flight: the command completes at the edge L(op) after its acceptance, and the orchestrator advances at the edges before (R250, R181). -/
def engineEdge (L : Latency) (s : State) : State :=
  match s.pend with
  | none => s
  | some p =>
    if latencyOf L p.op ≤ s.orch.cycles + 1 then orchComplete s
    else { s with orch := orchAdvance s.sbox p s.w s.orch }

/-- The engine's part of a cycle, after the cycle's transaction: only a command already in flight at the start of the cycle counts it (R67, R250). -/
def afterTransaction (L : Latency) (wasBusy : Bool) (s : State) : State :=
  if wasBusy then engineEdge L s else s

/-- The host's part of a cycle without reset: the transaction if `req` = 1, otherwise no response (R66, R67). -/
def hostPart (q : Ports) (s : State) : Host.Outcome State Fault Refusal :=
  if q.req then transaction q.request s else .next { s with resp := none }

/-- A cycle with `rst` = 1: the state takes its reset values, and a transaction presented in it is answered `err` = 1, `rdata` = 0 (R67, R231; log 14). -/
def resetCycle (q : Ports) (s : State) : State :=
  if q.req then busError (resetStep s) else resetStep s

/-- One clock cycle (R67): reset, or "the transaction step comes first and `Complete` second". -/
def cycle (L : Latency) (q : Ports) (s : State) : Host.Outcome State Fault Refusal :=
  if q.rst then .next (resetCycle q s)
  else match hostPart q s with
    | .next t => .next (afterTransaction L s.busy t)
    | .fault r => .fault r
    | .refused r => .refused r

/-- Consecutive cycles (R67), stopping at a fault or a refusal (there is none). -/
def cycles (L : Latency) : List Ports → State → Host.Outcome State Fault Refusal
  | [], s => .next s
  | q :: qs, s =>
    match cycle L q s with
    | .next t => cycles L qs t
    | .fault r => .fault r
    | .refused r => .refused r

/-- The edge that closes this cycle completes the command in flight (R250). -/
def completesAt (L : Latency) (s : State) : Bool :=
  match s.pend with
  | none => false
  | some p => decide (latencyOf L p.op ≤ s.orch.cycles + 1)

/-- The transaction-level steps a cycle stands for (R68): `Reset`, or the cycle's transaction and then the completion, each if there is one. -/
def cycleInputs (L : Latency) (q : Ports) (s : State) : List Input :=
  if q.rst then [.reset]
  else (if q.req then [.host q.request] else []) ++ (if completesAt L s then [.complete] else [])

/-- Several transaction-level steps in order (R50), stopping at a fault or a refusal (there is none). -/
def actAll : List Input → State → Host.Outcome State Fault Refusal
  | [], s => .next s
  | e :: es, s =>
    match act e s with
    | .next t => actAll es t
    | .fault r => .fault r
    | .refused r => .refused r

/-- The transaction-level steps a run of cycles stands for (R68). -/
def runInputs (L : Latency) : List Ports → State → List Input
  | [], _ => []
  | q :: qs, s =>
    cycleInputs L q s ++
    match cycle L q s with
    | .next t => runInputs L qs t
    | .fault _ => []
    | .refused _ => []

end Sys2Proof.Machine
end

