-- ==== Sys2Proof/Safety.lean ====
section
/-! DEFINITION. What holds of the CORE from reset on, in the terms the claims use: the invariant of the transaction level, the invariant of the cycle level, and what a host can see of a state. -/

namespace Sys2Proof.Machine

/-- The condition under which a command is rejected at issue, and with what cause (20_memory.md R55, 30_encoding.md R75). -/
def rejectionCause (i : Instr) (s : State) : Option CmdErrorCause :=
  match i with
  | .gfmul  => nibbleRangeCause s
  | .sub    => none
  | .isub   => none
  | .shr    => none
  | .addk   => none
  | .mixc   => none
  | .imixc  => none
  | .rotsub => byteRangeCause s
  | .keyexp => none
  | .enc    => noKeyCause s
  | .dec    => noKeyCause s

/-- What every state from reset on satisfies. -/
structure CoreInv (s : State) : Prop where
  /-- KV = 1 only when W holds the expansion of the current KEY (10_state.md R28, R31). -/
  keysValid : s.kv = true → s.w = expandKey s.sbox s.key
  /-- PEND holds the live operand registers, "those cannot change while BUSY = 1" (R38), and LASTOP its opcode (R34). -/
  pendLive : ∀ p, s.pend = some p → p = snapshot p.op s ∧ s.lastOp = opcode p.op
  /-- While a command is in flight, DONE = 0 and ERR = 0 (R30, R32). -/
  pendFlags : ∀ p, s.pend = some p → s.done = false ∧ s.err = false
  /-- A command in flight was not to be rejected: GFMUL has nibbles, ROTSUB a byte, ENC and DEC a valid key (60_exceptions.md R202). -/
  pendLegal : ∀ p, s.pend = some p → rejectionCause p.op s = none
  /-- ERR = 1 exactly when ERRCODE names a cause (R32, R33). -/
  errNamed : s.err = true ↔ s.errCode ≠ errorCodeNone
  /-- "4..15 reserved, never written" (R33). -/
  errCodeLegal : s.errCode.toNat ≤ 3
  /-- DONE and ERR are never both 1 (R30, R32). -/
  doneNotErr : ¬(s.done = true ∧ s.err = true)
  /-- The premise that "SBOX is a permutation" (41_substitution.md R121). -/
  tableIsPermutation : s.sbox.IsPermutation

/-- What every state of the cycle level satisfies: an idle orchestrator without a command in flight, and with one the registers that its phases leave, short of its latency (R39, 44_cipher_core.md R181, 70_reset_and_hazards.md R250). The registers' values are the model's choice where the spec gives none (DESIGN CHOICE, logs 10, 11, 12, 13, 21). -/
structure CycleInv (L : Latency) (s : State) : Prop where
  idle : s.pend = none → s.orch = Orch.idle
  inFlight : ∀ p, s.pend = some p → s.orch = orchAfter s.sbox p s.w s.orch.cycles ∧ s.orch.cycles < latencyOf L p.op

/-- The state without the orchestrator's registers, which "no architectural rule depends on" (R39), without the response and without the host's stream. -/
def architectural (s : State) : State := { s with orch := Orch.idle, resp := none, inputs := [] }

end Sys2Proof.Machine
end

