-- ==== Sys2Proof/Certificates/Slice0/Obligations.lean ====
section
/-! DEFINITION. The statements for the provers, from the numbered rules of spec/. -/

open Sys2Proof Sys2Proof.Machine

namespace Sys2Proof.PseudoCode

/-! The spec's pseudocode of a read, a write and an issue (20_memory.md R52, R53, R55), written out on numbers as it stands there, for the machine to be compared with. The orchestrator's registers are left out: the spec gives them no values (10_state.md R39), so where a step may write them a statement says that there are some, `∃ o`. -/

/-- The response with OKAY and no data. -/
def ok : Option Response := some { err := false, rdata := 0#32 }

/-- The response of `raise BusError()`. -/
def error : Option Response := some { err := true, rdata := 0#32 }

/-- The command of an opcode (R74). -/
def commandOf (op : BitVec 4) : Option Instr :=
  if op = 0x1#4 then some .gfmul else if op = 0x2#4 then some .sub else if op = 0x3#4 then some .isub
  else if op = 0x4#4 then some .shr else if op = 0x5#4 then some .addk else if op = 0x6#4 then some .mixc
  else if op = 0x7#4 then some .imixc else if op = 0x8#4 then some .rotsub else if op = 0x9#4 then some .keyexp
  else if op = 0xA#4 then some .enc else if op = 0xB#4 then some .dec else none

/-- `Issue(op)` (R55). -/
def issue (op : BitVec 4) (s : State) : State :=
  if op = 0x0#4 ∨ op = 0xC#4 ∨ op = 0xD#4 ∨ op = 0xE#4 ∨ op = 0xF#4 then
    { s with lastOp := op, done := false, err := true, errCode := 1#4, resp := ok }
  else if (op = 0xA#4 ∨ op = 0xB#4) ∧ s.kv = false then
    { s with lastOp := op, done := false, err := true, errCode := 2#4, resp := ok }
  else if op = 0x1#4 ∧ (s.dinA.extractLsb' 4 12 ≠ 0#12 ∨ s.dinB.extractLsb' 4 12 ≠ 0#12) then
    { s with lastOp := op, done := false, err := true, errCode := 3#4, resp := ok }
  else if op = 0x8#4 ∧ s.dinA.extractLsb' 8 8 ≠ 0#8 then
    { s with lastOp := op, done := false, err := true, errCode := 3#4, resp := ok }
  else match commandOf op with
    | none => s
    | some i =>
      { s with lastOp := op, done := false, err := false, errCode := 0#4, resp := ok,
               pend := some { op := i, a := s.dinA, b := s.dinB, k := s.key } }

/-- `MemWrite(off, 4, v)` (R53). -/
def write (off : Offset) (v : BusWord) (s : State) : State :=
  if off.extractLsb' 0 2 ≠ 0#2 ∨ 0x20#6 < off then { s with resp := error }
  else if off = 0x04#6 ∨ off = 0x14#6 ∨ off = 0x18#6 ∨ off = 0x1C#6 ∨ off = 0x20#6 then { s with resp := error }
  else if off = 0x00#6 then
    if v.extractLsb' 4 28 ≠ 0#28 then { s with resp := error }
    else if s.pend.isSome then { s with resp := error }
    else issue (v.extractLsb' 0 4) s
  else if v.extractLsb' 16 16 ≠ 0#16 then { s with resp := error }
  else if s.pend.isSome then { s with resp := error }
  else if off = 0x08#6 then { s with key := v.extractLsb' 0 16, kv := false, resp := ok }
  else if off = 0x0C#6 then { s with dinA := v.extractLsb' 0 16, resp := ok }
  else { s with dinB := v.extractLsb' 0 16, resp := ok }

/-- The word of `MemRead(off, 4)` at an offset that names a register (R52). -/
def word (off : Offset) (s : State) : BusWord :=
  if off = 0x04#6 then
    (s.lastOp ++ s.errCode ++ BitVec.ofBool s.err ++ BitVec.ofBool s.kv ++ BitVec.ofBool s.done ++ BitVec.ofBool s.pend.isSome).setWidth 32
  else if off = 0x08#6 then s.key.setWidth 32
  else if off = 0x0C#6 then s.dinA.setWidth 32
  else if off = 0x10#6 then s.dinB.setWidth 32
  else if off = 0x14#6 then s.result.setWidth 32
  else if off = 0x18#6 then (s.w.w0 ++ s.w.w1).setWidth 32
  else if off = 0x1C#6 then (s.w.w2 ++ s.w.w3).setWidth 32
  else if off = 0x20#6 then (s.w.w4 ++ s.w.w5).setWidth 32
  else 0#32

/-- `MemRead(off, 4)` (R52). -/
def read (off : Offset) (s : State) : State :=
  if off.extractLsb' 0 2 ≠ 0#2 ∨ 0x20#6 < off then { s with resp := error }
  else { s with resp := some { err := false, rdata := word off s } }

/-- The acceptance of command i with opcode op: what `Issue` leaves when no condition rejects it (R55). -/
def accepted (i : Instr) (op : BitVec 4) (s : State) : State :=
  { s with lastOp := op, done := false, err := false, errCode := 0#4, resp := ok,
           pend := some { op := i, a := s.dinA, b := s.dinB, k := s.key } }

/-- The rejection of opcode op with an ERRCODE (60_exceptions.md R201). -/
def rejected (op code : BitVec 4) (s : State) : State :=
  { s with lastOp := op, done := false, err := true, errCode := code, resp := ok }

/-- A completion that writes RESULT, and nothing else but BUSY and DONE (20_memory.md R56). -/
def completedWith (r : Block) (s : State) : State :=
  { s with result := r, done := true, pend := none }

/-- The STATUS fields (10_state.md R28), BUSY first. -/
def status (s : State) : Bool × Bool × Bool × Bool × BitVec 4 × BitVec 4 :=
  (s.pend.isSome, s.done, s.kv, s.err, s.errCode, s.lastOp)

/-- The sixteen nibbles in order. -/
def nibbles : List Nibble := (List.range 16).map (BitVec.ofNat 4)

end Sys2Proof.PseudoCode

open Sys2Proof.PseudoCode

/-! ## The commands: issue, rejection and completion, with their frames -/

/-- R105. GFMUL: its word; issue and its RANGE check; completion, for every snapshot; a CTRL write while busy; the corner cases and the example. Every next state is given whole, but for the orchestrator's registers, so the frame is in it. -/
def Obligations.GfmulIssuesChecksAndCompletes : Prop :=
  encode .gfmul = 0x00000001#32 ∧
  (∀ s : State, s.pend = none → s.dinA.extractLsb' 4 12 = 0#12 → s.dinB.extractLsb' 4 12 = 0#12 →
    ∃ o, exec .gfmul s = .next { accepted .gfmul 0x1#4 s with orch := o }) ∧
  (∀ s : State, s.pend = none → (s.dinA.extractLsb' 4 12 ≠ 0#12 ∨ s.dinB.extractLsb' 4 12 ≠ 0#12) →
    exec .gfmul s = .next (rejected 0x1#4 3#4 s)) ∧
  (∀ (s : State) (a b k : Block), s.pend = some ⟨.gfmul, a, b, k⟩ →
    ∃ o, exec .gfmul s = .next { completedWith ((gmul (a.extractLsb' 0 4) (b.extractLsb' 0 4)).setWidth 16) s with orch := o }) ∧
  (∀ s : State, s.pend.isSome → act (.host (.write 0x00#6 0x00000001#32)) s = .next { s with resp := error }) ∧
  (∀ a b : Nibble, ((gmul a b).setWidth 16 : Block).extractLsb' 4 12 = 0#12) ∧
  (∀ a : Nibble, gmul 0#4 a = 0#4 ∧ gmul a 0#4 = 0#4 ∧ gmul 1#4 a = a ∧ gmul a 1#4 = a) ∧
  gmul 0x4#4 0x9#4 = 0x2#4

/-- R125. SUB: its word, issue, completion in the block form for whatever table the CORE has, a CTRL write while busy, and the corner cases and example, whose values are those of the default table (log 8). -/
def Obligations.SubIssuesAndCompletes : Prop :=
  encode .sub = 0x00000002#32 ∧
  (∀ s : State, s.pend = none → ∃ o, exec .sub s = .next { accepted .sub 0x2#4 s with orch := o }) ∧
  (∀ (s : State) (a b k : Block), s.pend = some ⟨.sub, a, b, k⟩ →
    ∃ o, exec .sub s = .next { completedWith (subBlock s.sbox a) s with orch := o } ∧
    subBlock s.sbox a = vecToInt (substituteNibbles s.sbox (intToVec a))) ∧
  (∀ s : State, s.pend.isSome → act (.host (.write 0x00#6 0x00000002#32)) s = .next { s with resp := error }) ∧
  subBlock defaultSbox 0x0000#16 = 0x9999#16 ∧
  (∀ n : Nibble, sboxAt defaultSbox n = n ↔ n = 0xC#4) ∧
  (∀ T : SBox, T.IsPermutation → ∀ x : Block, subBlockInv T (subBlock T x) = x) ∧
  subBlock defaultSbox 0xC850#16 = 0xC619#16

/-- R126. ISUB: its word, issue, completion in the block form with the inverse of whatever table the CORE has, a CTRL write while busy, and the corner cases and example, whose values are those of the default table (log 8). -/
def Obligations.IsubIssuesAndCompletes : Prop :=
  encode .isub = 0x00000003#32 ∧
  (∀ s : State, s.pend = none → ∃ o, exec .isub s = .next { accepted .isub 0x3#4 s with orch := o }) ∧
  (∀ (s : State) (a b k : Block), s.pend = some ⟨.isub, a, b, k⟩ →
    ∃ o, exec .isub s = .next { completedWith (subBlockInv s.sbox a) s with orch := o } ∧
    subBlockInv s.sbox a = vecToInt (substituteNibblesInv s.sbox (intToVec a))) ∧
  (∀ s : State, s.pend.isSome → act (.host (.write 0x00#6 0x00000003#32)) s = .next { s with resp := error }) ∧
  subBlockInv defaultSbox 0x9999#16 = 0x0000#16 ∧
  (∀ T : SBox, T.IsPermutation → ∀ x : Block, subBlock T (subBlockInv T x) = x) ∧
  subBlockInv defaultSbox 0xCCCC#16 = 0xCCCC#16 ∧
  subBlockInv defaultSbox 0x7961#16 = 0xF085#16

/-- R147. SHR: its word, issue, completion {N0, N3, N2, N1}, a CTRL write while busy, the corner cases and the example. -/
def Obligations.ShrIssuesAndCompletes : Prop :=
  encode .shr = 0x00000004#32 ∧
  (∀ s : State, s.pend = none → ∃ o, exec .shr s = .next { accepted .shr 0x4#4 s with orch := o }) ∧
  (∀ (s : State) (a b k : Block), s.pend = some ⟨.shr, a, b, k⟩ →
    ∃ o, exec .shr s = .next { completedWith
      (a.extractLsb' 12 4 ++ a.extractLsb' 0 4 ++ a.extractLsb' 4 4 ++ a.extractLsb' 8 4) s with orch := o } ∧
    a.extractLsb' 12 4 ++ a.extractLsb' 0 4 ++ a.extractLsb' 4 4 ++ a.extractLsb' 8 4 = vecToInt (shiftRow (intToVec a))) ∧
  (∀ s : State, s.pend.isSome → act (.host (.write 0x00#6 0x00000004#32)) s = .next { s with resp := error }) ∧
  (∀ x : Block, x.extractLsb' 8 4 = x.extractLsb' 0 4 → shiftRowBlock x = x) ∧
  (∀ x : Block, shiftRowBlock (shiftRowBlock x) = x) ∧
  shiftRowBlock 0xC619#16 = 0xC916#16

/-- R148. ADDK: its word, issue, completion PEND.a xor PEND.b, a CTRL write while busy, the vector form, and the corner cases and example. -/
def Obligations.AddkIssuesAndCompletes : Prop :=
  encode .addk = 0x00000005#32 ∧
  (∀ s : State, s.pend = none → ∃ o, exec .addk s = .next { accepted .addk 0x5#4 s with orch := o }) ∧
  (∀ (s : State) (a b k : Block), s.pend = some ⟨.addk, a, b, k⟩ →
    ∃ o, exec .addk s = .next { completedWith (a ^^^ b) s with orch := o }) ∧
  (∀ s : State, s.pend.isSome → act (.host (.write 0x00#6 0x00000005#32)) s = .next { s with resp := error }) ∧
  (∀ t v : StateVec, addRoundKey t v = ⟨v.s0 ^^^ t.s0, v.s1 ^^^ t.s1, v.s2 ^^^ t.s2, v.s3 ^^^ t.s3⟩) ∧
  (∀ x k : Block, vecToInt (addRoundKey (intToVec k) (intToVec x)) = x ^^^ k) ∧
  (∀ x k : Block, x ^^^ 0#16 = x ∧ x ^^^ x = 0#16 ∧ (x ^^^ k) ^^^ k = x) ∧
  0xECA2#16 ^^^ 0x1C27#16 = 0xF085#16

/-- R149. MIXC: its word, issue, completion MixBlock(PEND.a), a CTRL write while busy, the corner cases and the example. -/
def Obligations.MixcIssuesAndCompletes : Prop :=
  encode .mixc = 0x00000006#32 ∧
  (∀ s : State, s.pend = none → ∃ o, exec .mixc s = .next { accepted .mixc 0x6#4 s with orch := o }) ∧
  (∀ (s : State) (a b k : Block), s.pend = some ⟨.mixc, a, b, k⟩ →
    ∃ o, exec .mixc s = .next { completedWith (mixBlock a) s with orch := o } ∧ mixBlock a = vecToInt (mixColumns (intToVec a))) ∧
  (∀ s : State, s.pend.isSome → act (.host (.write 0x00#6 0x00000006#32)) s = .next { s with resp := error }) ∧
  mixBlock 0x0000#16 = 0x0000#16 ∧
  (∀ t u : Nibble, (mixBlock (t ++ t ++ u ++ u)) = gmul 5#4 t ++ gmul 5#4 t ++ gmul 5#4 u ++ gmul 5#4 u) ∧
  (∀ x y : Block, x.extractLsb' 8 8 = y.extractLsb' 8 8 → (mixBlock x).extractLsb' 8 8 = (mixBlock y).extractLsb' 8 8) ∧
  (∀ x y : Block, x.extractLsb' 0 8 = y.extractLsb' 0 8 → (mixBlock x).extractLsb' 0 8 = (mixBlock y).extractLsb' 0 8) ∧
  mixBlock 0x1111#16 = 0x5555#16 ∧ mixBlock 0xFFFF#16 = 0x6666#16 ∧ mixBlock 0x1000#16 = 0x1400#16 ∧
  mixBlock 0xC916#16 = 0xECA2#16

/-- R150. IMIXC: its word, issue, completion InvMixBlock(PEND.a), a CTRL write while busy, the corner cases and the example. -/
def Obligations.ImixcIssuesAndCompletes : Prop :=
  encode .imixc = 0x00000007#32 ∧
  (∀ s : State, s.pend = none → ∃ o, exec .imixc s = .next { accepted .imixc 0x7#4 s with orch := o }) ∧
  (∀ (s : State) (a b k : Block), s.pend = some ⟨.imixc, a, b, k⟩ →
    ∃ o, exec .imixc s = .next { completedWith (invMixBlock a) s with orch := o } ∧
    invMixBlock a = vecToInt (inverseMixColumns (intToVec a))) ∧
  (∀ s : State, s.pend.isSome → act (.host (.write 0x00#6 0x00000007#32)) s = .next { s with resp := error }) ∧
  invMixBlock 0x0000#16 = 0x0000#16 ∧
  (∀ t u : Nibble, (invMixBlock (t ++ t ++ u ++ u)) = gmul 0xB#4 t ++ gmul 0xB#4 t ++ gmul 0xB#4 u ++ gmul 0xB#4 u) ∧
  invMixBlock 0x5555#16 = 0x1111#16 ∧
  (∀ x : Block, invMixBlock (mixBlock x) = x) ∧
  invMixBlock 0xECA2#16 = 0xC916#16

/-- R165. ROTSUB: its word; issue and its RANGE check; completion with the byte zero-extended, for whatever table the CORE has; a CTRL write while busy; the corner cases and the example, whose values are those of the default table (log 8). -/
def Obligations.RotsubIssuesChecksAndCompletes : Prop :=
  encode .rotsub = 0x00000008#32 ∧
  (∀ s : State, s.pend = none → s.dinA.extractLsb' 8 8 = 0#8 → ∃ o, exec .rotsub s = .next { accepted .rotsub 0x8#4 s with orch := o }) ∧
  (∀ s : State, s.pend = none → s.dinA.extractLsb' 8 8 ≠ 0#8 → exec .rotsub s = .next (rejected 0x8#4 3#4 s)) ∧
  (∀ (s : State) (a b k : Block), s.pend = some ⟨.rotsub, a, b, k⟩ →
    ∃ o, exec .rotsub s = .next { completedWith
      ((sboxAt s.sbox (a.extractLsb' 0 4) ++ sboxAt s.sbox (a.extractLsb' 4 4)).setWidth 16) s with orch := o }) ∧
  (∀ s : State, s.pend.isSome → act (.host (.write 0x00#6 0x00000008#32)) s = .next { s with resp := error }) ∧
  (∀ (T : SBox) (b : Byte), ((rotSub T b).setWidth 16 : Block).extractLsb' 8 8 = 0#8) ∧
  rotSub defaultSbox 0x00#8 = 0x99#8 ∧ rotSub defaultSbox 0xCC#8 = 0xCC#8 ∧ rotSub defaultSbox 0x3B#8 = 0x3B#8 ∧
  rotSub defaultSbox 0x27#8 = 0x5A#8

/-- R166. KEYEXP: its word; issue, for every key; completion for whatever table the CORE has, which writes W and KV and leaves RESULT, KEY, DIN_A and DIN_B; a CTRL write while busy; the corner cases and the example, whose values are those of the default table (log 8). -/
def Obligations.KeyexpIssuesAndCompletes : Prop :=
  encode .keyexp = 0x00000009#32 ∧
  (∀ s : State, s.pend = none → ∃ o, exec .keyexp s = .next { accepted .keyexp 0x9#4 s with orch := o }) ∧
  (∀ (s : State) (a b k : Block), s.pend = some ⟨.keyexp, a, b, k⟩ →
    ∃ o, exec .keyexp s =
      .next { s with w := expandKey s.sbox k, kv := true, done := true, pend := none, orch := o }) ∧
  (∀ s : State, s.pend.isSome → act (.host (.write 0x00#6 0x00000009#32)) s = .next { s with resp := error }) ∧
  (∀ (s : State) (a b k : Block), s.pend = some ⟨.keyexp, a, b, k⟩ → s.kv = true → s.w = expandKey s.sbox k →
    ∃ o, exec .keyexp s = .next { s with done := true, pend := none, orch := o }) ∧
  (∀ (T : SBox) (k : Block), (expandKey T k).rk0 = k) ∧
  expandKey defaultSbox 0x0000#16 = ⟨0x00#8, 0x00#8, 0x19#8, 0x19#8, 0x0D#8, 0x14#8⟩ ∧
  expandKey defaultSbox 0xFFFF#16 = ⟨0xFF#8, 0xFF#8, 0x08#8, 0xF7#8, 0x6F#8, 0x98#8⟩ ∧
  expandKey defaultSbox 0xA73B#16 = ⟨0xA7#8, 0x3B#8, 0x1C#8, 0x27#8, 0x76#8, 0x51#8⟩

/-- R185. ENC: its word; issue with KV = 1 and the NOKEY rejection with KV = 0; completion, from the snapshot, W and whatever table the CORE has, with everything else unchanged; a CTRL write while busy; the corner cases and the example, whose values are those of the default table (log 8). -/
def Obligations.EncIssuesChecksAndCompletes : Prop :=
  encode .enc = 0x0000000A#32 ∧
  (∀ s : State, s.pend = none → s.kv = true → ∃ o, exec .enc s = .next { accepted .enc 0xA#4 s with orch := o }) ∧
  (∀ s : State, s.pend = none → s.kv = false → exec .enc s = .next (rejected 0xA#4 2#4 s)) ∧
  (∀ (s : State) (a b k : Block), s.pend = some ⟨.enc, a, b, k⟩ →
    ∃ o, exec .enc s = .next { completedWith (encrypt s.sbox a s.w) s with orch := o }) ∧
  (∀ s : State, s.pend.isSome → act (.host (.write 0x00#6 0x0000000A#32)) s = .next { s with resp := error }) ∧
  (∀ w : KeyStore, vecToInt (addRoundKey (intToVec w.rk0) (intToVec w.rk0)) = 0#16) ∧
  (∀ T : SBox, T.IsPermutation → ∀ (c : Block) (w : KeyStore), encrypt T (decrypt T c w) w = c) ∧
  encrypt defaultSbox 0x0000#16 (expandKey defaultSbox 0x0000#16) = 0x071E#16 ∧
  encrypt defaultSbox 0x6F6B#16 (expandKey defaultSbox 0xA73B#16) = 0x0738#16

/-- R187. DEC: its word; issue with KV = 1 and the NOKEY rejection with KV = 0; completion, from the snapshot, W and whatever table the CORE has, with everything else unchanged; a CTRL write while busy; the corner cases and the example, whose values are those of the default table (log 8). -/
def Obligations.DecIssuesChecksAndCompletes : Prop :=
  encode .dec = 0x0000000B#32 ∧
  (∀ s : State, s.pend = none → s.kv = true → ∃ o, exec .dec s = .next { accepted .dec 0xB#4 s with orch := o }) ∧
  (∀ s : State, s.pend = none → s.kv = false → exec .dec s = .next (rejected 0xB#4 2#4 s)) ∧
  (∀ (s : State) (a b k : Block), s.pend = some ⟨.dec, a, b, k⟩ →
    ∃ o, exec .dec s = .next { completedWith (decrypt s.sbox a s.w) s with orch := o }) ∧
  (∀ s : State, s.pend.isSome → act (.host (.write 0x00#6 0x0000000B#32)) s = .next { s with resp := error }) ∧
  (∀ T : SBox, T.IsPermutation → ∀ (p : Block) (w : KeyStore), decrypt T (encrypt T p w) w = p) ∧
  decrypt defaultSbox 0x071E#16 (expandKey defaultSbox 0x0000#16) = 0x0000#16 ∧
  decrypt defaultSbox 0x0738#16 (expandKey defaultSbox 0xA73B#16) = 0x6F6B#16

/-! ## The step -/

/-- How a step finds what it runs: the head of the stream, or the engine's turn when the stream is empty; a CTRL write of a command's word, with nothing in flight, runs `exec` of that command, the engine's turn runs `exec` of the command in flight, and `withFetchWord` puts a word where the next step issues it. The stream is the model's own (log 1, log 2). -/
def Obligations.StepRunsTheDecodedCommand : Prop :=
  (∀ (s : State) (e : Input) (rest : List Input), s.inputs = e :: rest → step s = act e { s with inputs := rest }) ∧
  (∀ (s : State) (rest : List Input) (v : BusWord) (i : Instr),
    s.inputs = .host (.write 0x00#6 v) :: rest → s.pend = none → decodeCommand v = .command i →
      step s = exec i { s with inputs := rest }) ∧
  (∀ (s : State) (rest : List Input) (p : Pending),
    s.inputs = .complete :: rest → s.pend = some p → step s = exec p.op { s with inputs := rest }) ∧
  (∀ (s : State) (p : Pending), s.inputs = [] → s.pend = some p → step s = exec p.op s) ∧
  (∀ s : State, s.inputs = [] → s.pend = none → step s = .next s) ∧
  (∀ (s : State) (nbits w : Nat) (i : Instr),
    s.pend = none → decodeTableWord nbits w = some i → step (s.withFetchWord nbits w) = exec i s)

/-- No step faults or is refused: a command error and a bus error are next states, and the completion step never fails (R56). R201 and R205 give the errors their effects; that the model takes these as next states, with no fault, is log 20 (DEDUCED). An engine's turn with nothing in flight (log 3), and `exec` of a command while another is in flight (log 5), are next states by the model's choice. -/
def Obligations.EveryStepAnswersANextState : Prop :=
  (∀ s : State, ∃ t, step s = .next t) ∧ (∀ (i : Instr) (s : State), ∃ t, exec i s = .next t)

/-- R52. A read transaction, at every offset and in every state: the response, and no state change. -/
def Obligations.ReadFollowsThePseudocode : Prop :=
  ∀ (s : State) (off : Offset) (rest : List Input), s.inputs = .host (.read off) :: rest →
    step s = .next (PseudoCode.read off { s with inputs := rest })

/-- R53 and R55. A write transaction, at every offset, for every word and in every state: the checks, and for CTRL the issue. -/
def Obligations.WriteFollowsThePseudocode : Prop :=
  ∀ (s : State) (off : Offset) (v : BusWord) (rest : List Input), s.inputs = .host (.write off v) :: rest →
    ∃ o, step s = .next { PseudoCode.write off v { s with inputs := rest } with orch := o }

/-- R205. A transaction answered with ERROR changed nothing, and carries no data. -/
def Obligations.BusErrorChangesNothing : Prop :=
  ∀ (s t : State) (r : Request) (rest : List Input) (e : Response),
    s.inputs = .host r :: rest → step s = .next t → t.resp = some e → e.err = true →
      e.rdata = 0#32 ∧ t = { s with inputs := rest, resp := some e }

/-- R206 and R207. A transaction is answered with ERROR exactly for the causes listed: a misaligned or reserved offset, a write to a read-only register, a value too wide for the register, or a write to CTRL, KEY, DIN_A or DIN_B while BUSY = 1. A write so refused issues nothing and records nothing. -/
def Obligations.BusErrorHasExactlyItsCauses : Prop :=
  (∀ (s t : State) (off : Offset) (e : Response), act (.host (.read off)) s = .next t → t.resp = some e →
    (e.err = true ↔ off.extractLsb' 0 2 ≠ 0#2 ∨ 0x24#6 ≤ off)) ∧
  (∀ (s t : State) (off : Offset) (v : BusWord) (e : Response),
    act (.host (.write off v)) s = .next t → t.resp = some e →
    (e.err = true ↔
      off.extractLsb' 0 2 ≠ 0#2 ∨ 0x24#6 ≤ off ∨
      off = 0x04#6 ∨ off = 0x14#6 ∨ off = 0x18#6 ∨ off = 0x1C#6 ∨ off = 0x20#6 ∨
      (off = 0x00#6 ∧ v.extractLsb' 4 28 ≠ 0#28) ∨
      ((off = 0x08#6 ∨ off = 0x0C#6 ∨ off = 0x10#6) ∧ v.extractLsb' 16 16 ≠ 0#16) ∨
      ((off = 0x00#6 ∨ off = 0x08#6 ∨ off = 0x0C#6 ∨ off = 0x10#6) ∧ s.pend.isSome = true)) ∧
    (e.err = true → t = { s with resp := error }))

/-- R60. A read repeated gives the same state and the same word, and so does a write to KEY, DIN_A or DIN_B. -/
def Obligations.ReadsAndOperandWritesAreIdempotent : Prop :=
  (∀ (s t : State) (off : Offset), act (.host (.read off)) s = .next t →
    t = { s with resp := t.resp } ∧ act (.host (.read off)) t = .next t) ∧
  (∀ (s t : State) (off : Offset) (v : BusWord), off = 0x08#6 ∨ off = 0x0C#6 ∨ off = 0x10#6 →
    act (.host (.write off v)) s = .next t → act (.host (.write off v)) t = .next t)

/-! ## The registers -/

/-- R23, R24, R25. KEY, DIN_A and DIN_B: an accepted write, the two refusals, the read, and the reset value; each accepted command takes its operands from them; and no command but GFMUL and ADDK reads DIN_B, at issue or at completion. -/
def Obligations.OperandRegistersReadAndWrite : Prop :=
  (∀ (s : State) (i : Instr), s.pend = none → rejectionCause i s = none →
    ∃ t, exec i s = .next t ∧ t.pend = some ⟨i, s.dinA, s.dinB, s.key⟩) ∧
  (∀ (s : State) (i : Instr) (x : Block), i ≠ .gfmul → i ≠ .addk →
    rejectionCause i { s with dinB := x } = rejectionCause i s ∧
    (∀ p, s.pend = some p → p.op = i →
      ∃ t, act .complete s = .next t ∧ act .complete { s with pend := some { p with b := x } } = .next t)) ∧
  (∀ (s : State) (v : BusWord), v.extractLsb' 16 16 = 0#16 → s.pend = none →
    act (.host (.write 0x08#6 v)) s = .next { s with key := v.extractLsb' 0 16, kv := false, resp := ok } ∧
    act (.host (.write 0x0C#6 v)) s = .next { s with dinA := v.extractLsb' 0 16, resp := ok } ∧
    act (.host (.write 0x10#6 v)) s = .next { s with dinB := v.extractLsb' 0 16, resp := ok }) ∧
  (∀ (s : State) (v : BusWord), (v.extractLsb' 16 16 ≠ 0#16 ∨ s.pend.isSome = true) →
    act (.host (.write 0x08#6 v)) s = .next { s with resp := error } ∧
    act (.host (.write 0x0C#6 v)) s = .next { s with resp := error } ∧
    act (.host (.write 0x10#6 v)) s = .next { s with resp := error }) ∧
  (∀ s : State,
    act (.host (.read 0x08#6)) s = .next { s with resp := some ⟨false, s.key.setWidth 32⟩ } ∧
    act (.host (.read 0x0C#6)) s = .next { s with resp := some ⟨false, s.dinA.setWidth 32⟩ } ∧
    act (.host (.read 0x10#6)) s = .next { s with resp := some ⟨false, s.dinB.setWidth 32⟩ }) ∧
  State.reset.key = 0#16 ∧ State.reset.dinA = 0#16 ∧ State.reset.dinB = 0#16

/-- R26. RESULT changes only by the completion of a command other than KEYEXP, or by reset; a read returns it, and a write is a bus error. -/
def Obligations.ResultIsWrittenOnlyByCompletion : Prop :=
  (∀ (s t : State) (e : Input), act e s = .next t → t.result ≠ s.result →
    (e = .reset ∧ t.result = 0#16) ∨
    (e = .complete ∧ ∃ p, s.pend = some p ∧ p.op ≠ .keyexp ∧ t.pend = none ∧ t.done = true)) ∧
  (∀ s : State, act (.host (.read 0x14#6)) s = .next { s with resp := some ⟨false, s.result.setWidth 32⟩ }) ∧
  (∀ (s : State) (v : BusWord), act (.host (.write 0x14#6 v)) s = .next { s with resp := error }) ∧
  State.reset.result = 0#16

/-- R27. CTRL stores nothing: a read returns 0 and has no effect. -/
def Obligations.CtrlReadsZero : Prop :=
  ∀ s : State, act (.host (.read 0x00#6)) s = .next { s with resp := some ⟨false, 0#32⟩ }

/-- R28, R35. Each field of STATUS is at its bits of the word a read returns, the reserved bits read 0, and a write is a bus error. -/
def Obligations.StatusWordHoldsItsFields : Prop :=
  (∀ s : State, ∃ v : BusWord, act (.host (.read 0x04#6)) s = .next { s with resp := some ⟨false, v⟩ } ∧
    v.getLsbD 0 = s.pend.isSome ∧ v.getLsbD 1 = s.done ∧ v.getLsbD 2 = s.kv ∧ v.getLsbD 3 = s.err ∧
    v.extractLsb' 4 4 = s.errCode ∧ v.extractLsb' 8 4 = s.lastOp ∧ v.extractLsb' 12 20 = 0#20) ∧
  (∀ (s : State) (v : BusWord), act (.host (.write 0x04#6 v)) s = .next { s with resp := error })

/-- R29. BUSY is set by the acceptance of a command and only by it, is 0 after a rejection, and is cleared by the completion and by reset and only by them; while it is 1, no command can be issued and no operand register written. -/
def Obligations.BusyIsSetByIssueAndClearedByCompletion : Prop :=
  (∀ (s : State) (v : BusWord) (i : Instr), s.pend = none → decodeCommand v = .command i → rejectionCause i s = none →
    ∃ o, act (.host (.write 0x00#6 v)) s = .next { accepted i (v.extractLsb' 0 4) s with orch := o }) ∧
  (∀ (s : State) (v : BusWord) (i : Instr), s.pend = none → decodeCommand v = .command i → rejectionCause i s ≠ none →
    ∃ t, act (.host (.write 0x00#6 v)) s = .next t ∧ t.pend = none) ∧
  (∀ (s : State) (v : BusWord) (op : BitVec 4), s.pend = none → decodeCommand v = .reservedOp op →
    ∃ t, act (.host (.write 0x00#6 v)) s = .next t ∧ t.pend = none) ∧
  (∀ s : State, s.pend ≠ none →
    (∃ t, act .complete s = .next t ∧ t.pend = none) ∧ (∃ t, act .reset s = .next t ∧ t.pend = none)) ∧
  (∀ (s t : State) (e : Input), act e s = .next t → s.pend = none → t.pend ≠ none →
    ∃ v i, e = .host (.write 0x00#6 v) ∧ decodeCommand v = .command i ∧
      ∃ o, t = { accepted i (v.extractLsb' 0 4) s with orch := o }) ∧
  (∀ (s t : State) (e : Input), act e s = .next t → s.pend ≠ none → t.pend = none → e = .complete ∨ e = .reset) ∧
  (∀ (s t : State) (e : Input), act e s = .next t → s.pend ≠ none → t.pend ≠ none →
    t.pend = s.pend ∧ t.key = s.key ∧ t.dinA = s.dinA ∧ t.dinB = s.dinB ∧ t.lastOp = s.lastOp)

/-- R31. KV is set by the completion of KEYEXP, cleared by every accepted write of KEY and by reset, and by nothing else; ENC and DEC are rejected with NOKEY while it is 0. -/
def Obligations.KeyValidIsSetAndClearedByItsRule : Prop :=
  (∀ (s t : State) (p : Pending), s.pend = some p → p.op = .keyexp → act .complete s = .next t → t.kv = true) ∧
  (∀ (s t : State) (v : BusWord), act (.host (.write 0x08#6 v)) s = .next t → t.resp = ok → t.kv = false) ∧
  (∀ s t : State, act .reset s = .next t → t.kv = false) ∧
  (∀ (s t : State) (e : Input), act e s = .next t → t.kv ≠ s.kv →
    (e = .complete ∧ ∃ p, s.pend = some p ∧ p.op = .keyexp) ∨ (∃ v, e = .host (.write 0x08#6 v)) ∨ e = .reset) ∧
  (∀ s : State, s.pend = none → s.kv = false →
    exec .enc s = .next (rejected 0xA#4 2#4 s) ∧ exec .dec s = .next (rejected 0xB#4 2#4 s))

/-- R36. The round-key store is written only by the completion of KEYEXP, which writes all six bytes at once, or by reset; the completions of ENC and DEC read it. -/
def Obligations.RoundKeyStoreIsWrittenOnlyByKeyexp : Prop :=
  (∀ (s : State) (p : Pending), s.pend = some p →
    (p.op = .keyexp → ∃ t, act .complete s = .next t ∧ t.w = expandKey s.sbox p.k) ∧
    (p.op = .enc → ∃ t, act .complete s = .next t ∧ t.result = encrypt s.sbox p.a s.w) ∧
    (p.op = .dec → ∃ t, act .complete s = .next t ∧ t.result = decrypt s.sbox p.a s.w)) ∧
  (∀ (s t : State) (e : Input), act e s = .next t → t.w ≠ s.w →
    (e = .reset ∧ t.w = ⟨0#8, 0#8, 0#8, 0#8, 0#8, 0#8⟩) ∨
    (e = .complete ∧ ∃ p, s.pend = some p ∧ p.op = .keyexp ∧ t.w = expandKey s.sbox p.k ∧ t.kv = true)) ∧
  State.reset.w = ⟨0#8, 0#8, 0#8, 0#8, 0#8, 0#8⟩

/-- R37. RK0, RK1 and RK2 read the pairs of bytes of the store whatever KV is, and a write to one is a bus error. -/
def Obligations.RoundKeyViewsAreReadOnly : Prop :=
  (∀ s : State,
    act (.host (.read 0x18#6)) s = .next { s with resp := some ⟨false, (s.w.w0 ++ s.w.w1).setWidth 32⟩ } ∧
    act (.host (.read 0x1C#6)) s = .next { s with resp := some ⟨false, (s.w.w2 ++ s.w.w3).setWidth 32⟩ } ∧
    act (.host (.read 0x20#6)) s = .next { s with resp := some ⟨false, (s.w.w4 ++ s.w.w5).setWidth 32⟩ }) ∧
  (∀ (s : State) (v : BusWord),
    act (.host (.write 0x18#6 v)) s = .next { s with resp := error } ∧
    act (.host (.write 0x1C#6 v)) s = .next { s with resp := error } ∧
    act (.host (.write 0x20#6 v)) s = .next { s with resp := error }) ∧
  readWord .rk0 State.reset = 0#32 ∧ readWord .rk1 State.reset = 0#32 ∧ readWord .rk2 State.reset = 0#32

/-- R41. The table of which steps write which STATUS fields, row by row. -/
def Obligations.StatusEffectsFollowTheTable : Prop :=
  (∀ (s t : State) (off : Offset), act (.host (.read off)) s = .next t → status t = status s) ∧
  (∀ (s t : State) (v : BusWord), act (.host (.write 0x08#6 v)) s = .next t → t.resp = ok →
    status t = (s.pend.isSome, s.done, false, s.err, s.errCode, s.lastOp)) ∧
  (∀ (s t : State) (off : Offset) (v : BusWord), off = 0x0C#6 ∨ off = 0x10#6 →
    act (.host (.write off v)) s = .next t → t.resp = ok → status t = status s) ∧
  (∀ (s t : State) (off : Offset) (v : BusWord), act (.host (.write off v)) s = .next t → t.resp = error →
    status t = status s) ∧
  (∀ (s t : State) (v : BusWord), act (.host (.write 0x00#6 v)) s = .next t → t.resp = ok →
    status t = (true, false, s.kv, false, 0#4, v.extractLsb' 0 4) ∨
    (∃ code, code ≠ 0#4 ∧ status t = (false, false, s.kv, true, code, v.extractLsb' 0 4))) ∧
  (∀ (s t : State) (p : Pending), s.pend = some p → act .complete s = .next t →
    status t = (false, true, if p.op = .keyexp then true else s.kv, s.err, s.errCode, s.lastOp)) ∧
  (∀ s t : State, act .reset s = .next t → status t = (false, false, false, false, 0#4, 0#4))

/-- R230, R232. Reset gives every register the spec's reset value from every state, a command in flight included, which is abandoned, and leaves the S-box as it is. -/
def Obligations.ResetSetsEveryRegister : Prop :=
  ∀ (s : State) (rest : List Input), s.inputs = .reset :: rest → ∃ t, step s = .next t ∧
    t.key = 0#16 ∧ t.dinA = 0#16 ∧ t.dinB = 0#16 ∧ t.result = 0#16 ∧
    t.w = ⟨0#8, 0#8, 0#8, 0#8, 0#8, 0#8⟩ ∧ t.done = false ∧ t.kv = false ∧ t.err = false ∧
    t.errCode = 0#4 ∧ t.lastOp = 0#4 ∧ t.pend = none ∧ t.orch.phase = .idle ∧ t.sbox = s.sbox

/-- R243. A write of KEY clears KV and leaves W: the round-key registers still show the old keys while ENC and DEC are rejected with NOKEY. -/
def Obligations.KeyChangeLeavesStaleRoundKeys : Prop :=
  ∀ (s t : State) (v : BusWord), s.pend = none → act (.host (.write 0x08#6 v)) s = .next t → t.resp = ok →
    t.kv = false ∧ t.w = s.w ∧
    (∀ r ∈ [Reg.rk0, Reg.rk1, Reg.rk2], readWord r t = readWord r s) ∧
    exec .enc t = .next (rejected 0xA#4 2#4 t) ∧ exec .dec t = .next (rejected 0xB#4 2#4 t)

/-! ## Whole-machine rules -/

/-- R23, R24, R25, R63. KEY, DIN_A and DIN_B each change only by a write to their own offset or by reset, and not while a command is in flight. -/
def Obligations.OperandRegistersChangeOnlyByTheirWrites : Prop :=
  ∀ (s t : State) (e : Input), act e s = .next t → e ≠ .reset →
    (t.key ≠ s.key → s.pend = none ∧ ∃ v, e = .host (.write 0x08#6 v)) ∧
    (t.dinA ≠ s.dinA → s.pend = none ∧ ∃ v, e = .host (.write 0x0C#6 v)) ∧
    (t.dinB ≠ s.dinB → s.pend = none ∧ ∃ v, e = .host (.write 0x10#6 v))

/-- An invariant of the transaction level that every step keeps, from every state that has it (R28, R30 to R34, R38, R202), among it the premise that the table is a permutation (R121). -/
def Obligations.InvariantIsKeptByEveryStep : Prop :=
  ∀ s t : State, CoreInv s → step s = .next t → CoreInv t

/-- The invariant holds at reset, with the default table (log 8) and with every other permutation. -/
def Obligations.InvariantHoldsAtReset : Prop :=
  CoreInv State.reset ∧ ∀ T : SBox, T.IsPermutation → CoreInv (State.resetWith T)

/-- R50's fairness, in this model (log 2): with a command in flight, BUSY becomes 0 within as many steps as the stream has entries, and one more. -/
def Obligations.CommandInFlightEnds : Prop :=
  ∀ s : State, s.pend ≠ none → ∃ n t, 1 ≤ n ∧ n ≤ s.inputs.length + 1 ∧
    Host.Core.run Sys2Proof.core n s = .next t ∧ t.pend = none

/-- R38. The completion step computes from PEND and W: two states that agree on those, and are built with the same constant tables (R40), give the same RESULT (but for KEYEXP, which keeps it) and the same W, whatever KEY, DIN_A, DIN_B, RESULT and the orchestrator's registers hold. -/
def Obligations.CompletionReadsOnlyPendAndW : Prop :=
  ∀ (s t : State) (p : Pending), s.pend = some p → t.pend = some p → s.w = t.w → s.sbox = t.sbox →
    ∃ s' t', act .complete s = .next s' ∧ act .complete t = .next t' ∧
      s'.w = t'.w ∧ (p.op ≠ .keyexp → s'.result = t'.result) ∧ (p.op = .keyexp → s'.result = s.result)

/-- R244 and R39. No step but a read of RESULT depends on RESULT, and no architectural effect depends on the orchestrator's registers. -/
def Obligations.ResultAndOrchestratorAreNotRead : Prop :=
  (∀ (e : Input) (s : State) (x : Block), e ≠ .host (.read 0x14#6) →
    ∃ t t', act e s = .next t ∧ act e { s with result := x } = .next t' ∧ { t' with result := t.result } = t ∧
      (e = .complete → ∀ p, s.pend = some p → p.op ≠ .keyexp → t'.result = t.result)) ∧
  (∀ (e : Input) (s : State) (o : Orch),
    ∃ t t', act e s = .next t ∧ act e { s with orch := o } = .next t' ∧
      architectural t' = architectural t ∧ t'.resp = t.resp)

/-! ## The functions -/

/-- R101 and R102. The iterative and the combinational form of U1 agree on all pairs, and the constant multipliers of R107 are its rows. -/
def Obligations.MultiplierFormsAgree : Prop :=
  (∀ a b : Nibble, gmul a b = gmulCombinational a b) ∧
  (∀ a : Nibble, times2 a = gmul 2#4 a ∧ times4 a = gmul 4#4 a ∧ times9 a = gmul 9#4 a)

/-- R106 and R107. The product table of `gmul`, and the constant multipliers' value tables and bit equations. -/
def Obligations.MultiplierTables : Prop :=
  nibbles.map (fun a => nibbles.map (gmul a)) =
    [[0x0#4, 0x0#4, 0x0#4, 0x0#4, 0x0#4, 0x0#4, 0x0#4, 0x0#4, 0x0#4, 0x0#4, 0x0#4, 0x0#4, 0x0#4, 0x0#4, 0x0#4, 0x0#4],
     [0x0#4, 0x1#4, 0x2#4, 0x3#4, 0x4#4, 0x5#4, 0x6#4, 0x7#4, 0x8#4, 0x9#4, 0xA#4, 0xB#4, 0xC#4, 0xD#4, 0xE#4, 0xF#4],
     [0x0#4, 0x2#4, 0x4#4, 0x6#4, 0x8#4, 0xA#4, 0xC#4, 0xE#4, 0x3#4, 0x1#4, 0x7#4, 0x5#4, 0xB#4, 0x9#4, 0xF#4, 0xD#4],
     [0x0#4, 0x3#4, 0x6#4, 0x5#4, 0xC#4, 0xF#4, 0xA#4, 0x9#4, 0xB#4, 0x8#4, 0xD#4, 0xE#4, 0x7#4, 0x4#4, 0x1#4, 0x2#4],
     [0x0#4, 0x4#4, 0x8#4, 0xC#4, 0x3#4, 0x7#4, 0xB#4, 0xF#4, 0x6#4, 0x2#4, 0xE#4, 0xA#4, 0x5#4, 0x1#4, 0xD#4, 0x9#4],
     [0x0#4, 0x5#4, 0xA#4, 0xF#4, 0x7#4, 0x2#4, 0xD#4, 0x8#4, 0xE#4, 0xB#4, 0x4#4, 0x1#4, 0x9#4, 0xC#4, 0x3#4, 0x6#4],
     [0x0#4, 0x6#4, 0xC#4, 0xA#4, 0xB#4, 0xD#4, 0x7#4, 0x1#4, 0x5#4, 0x3#4, 0x9#4, 0xF#4, 0xE#4, 0x8#4, 0x2#4, 0x4#4],
     [0x0#4, 0x7#4, 0xE#4, 0x9#4, 0xF#4, 0x8#4, 0x1#4, 0x6#4, 0xD#4, 0xA#4, 0x3#4, 0x4#4, 0x2#4, 0x5#4, 0xC#4, 0xB#4],
     [0x0#4, 0x8#4, 0x3#4, 0xB#4, 0x6#4, 0xE#4, 0x5#4, 0xD#4, 0xC#4, 0x4#4, 0xF#4, 0x7#4, 0xA#4, 0x2#4, 0x9#4, 0x1#4],
     [0x0#4, 0x9#4, 0x1#4, 0x8#4, 0x2#4, 0xB#4, 0x3#4, 0xA#4, 0x4#4, 0xD#4, 0x5#4, 0xC#4, 0x6#4, 0xF#4, 0x7#4, 0xE#4],
     [0x0#4, 0xA#4, 0x7#4, 0xD#4, 0xE#4, 0x4#4, 0x9#4, 0x3#4, 0xF#4, 0x5#4, 0x8#4, 0x2#4, 0x1#4, 0xB#4, 0x6#4, 0xC#4],
     [0x0#4, 0xB#4, 0x5#4, 0xE#4, 0xA#4, 0x1#4, 0xF#4, 0x4#4, 0x7#4, 0xC#4, 0x2#4, 0x9#4, 0xD#4, 0x6#4, 0x8#4, 0x3#4],
     [0x0#4, 0xC#4, 0xB#4, 0x7#4, 0x5#4, 0x9#4, 0xE#4, 0x2#4, 0xA#4, 0x6#4, 0x1#4, 0xD#4, 0xF#4, 0x3#4, 0x4#4, 0x8#4],
     [0x0#4, 0xD#4, 0x9#4, 0x4#4, 0x1#4, 0xC#4, 0x8#4, 0x5#4, 0x2#4, 0xF#4, 0xB#4, 0x6#4, 0x3#4, 0xE#4, 0xA#4, 0x7#4],
     [0x0#4, 0xE#4, 0xF#4, 0x1#4, 0xD#4, 0x3#4, 0x2#4, 0xC#4, 0x9#4, 0x7#4, 0x6#4, 0x8#4, 0x4#4, 0xA#4, 0xB#4, 0x5#4],
     [0x0#4, 0xF#4, 0xD#4, 0x2#4, 0x9#4, 0x6#4, 0x4#4, 0xB#4, 0x1#4, 0xE#4, 0xC#4, 0x3#4, 0x8#4, 0x7#4, 0x5#4, 0xA#4]] ∧
  nibbles.map times2 = [0x0#4, 0x2#4, 0x4#4, 0x6#4, 0x8#4, 0xA#4, 0xC#4, 0xE#4, 0x3#4, 0x1#4, 0x7#4, 0x5#4, 0xB#4, 0x9#4, 0xF#4, 0xD#4] ∧
  nibbles.map times4 = [0x0#4, 0x4#4, 0x8#4, 0xC#4, 0x3#4, 0x7#4, 0xB#4, 0xF#4, 0x6#4, 0x2#4, 0xE#4, 0xA#4, 0x5#4, 0x1#4, 0xD#4, 0x9#4] ∧
  nibbles.map times9 = [0x0#4, 0x9#4, 0x1#4, 0x8#4, 0x2#4, 0xB#4, 0x3#4, 0xA#4, 0x4#4, 0xD#4, 0x5#4, 0xC#4, 0x6#4, 0xF#4, 0x7#4, 0xE#4] ∧
  (∀ a : Nibble, gmul 2#4 a =
    BitVec.ofBool (a.getLsbD 2) ++ BitVec.ofBool (a.getLsbD 1) ++ BitVec.ofBool (a.getLsbD 0 ^^ a.getLsbD 3) ++ BitVec.ofBool (a.getLsbD 3)) ∧
  (∀ a : Nibble, gmul 4#4 a =
    BitVec.ofBool (a.getLsbD 1) ++ BitVec.ofBool (a.getLsbD 0 ^^ a.getLsbD 3) ++ BitVec.ofBool (a.getLsbD 2 ^^ a.getLsbD 3) ++ BitVec.ofBool (a.getLsbD 2)) ∧
  (∀ a : Nibble, gmul 9#4 a =
    BitVec.ofBool (a.getLsbD 0) ++ BitVec.ofBool (a.getLsbD 3) ++ BitVec.ofBool (a.getLsbD 2) ++ BitVec.ofBool (a.getLsbD 0 ^^ a.getLsbD 1))

/-- The default tables of R120 (log 8), entry by entry, that they are not an involution (R122), and that the CORE after reset is built with them, unless another table is given. -/
def Obligations.SubstitutionTables : Prop :=
  nibbles.map (sboxAt defaultSbox) = [0x9#4, 0x4#4, 0xA#4, 0xB#4, 0xD#4, 0x1#4, 0x8#4, 0x5#4, 0x6#4, 0x2#4, 0x0#4, 0x3#4, 0xC#4, 0xE#4, 0xF#4, 0x7#4] ∧
  nibbles.map (sboxInvAt defaultSbox) = [0xA#4, 0x5#4, 0x9#4, 0xB#4, 0x1#4, 0x7#4, 0x8#4, 0xF#4, 0x6#4, 0x0#4, 0x2#4, 0x3#4, 0xC#4, 0x4#4, 0xD#4, 0xE#4] ∧
  sboxAt defaultSbox (sboxAt defaultSbox 0x0#4) ≠ 0x0#4 ∧
  State.reset.sbox = defaultSbox

/-- R103. The laws of `gmul`: commutativity, zero and one, associativity, distribution over xor, and the unique inverse of every nonzero nibble, with the pairs listed. -/
def Obligations.MultiplierLaws : Prop :=
  (∀ a b : Nibble, gmul a b = gmul b a) ∧ (∀ a : Nibble, gmul a 0#4 = 0#4 ∧ gmul a 1#4 = a) ∧
  (∀ a b c : Nibble, gmul (gmul a b) c = gmul a (gmul b c)) ∧
  (∀ a b c : Nibble, gmul a (b ^^^ c) = gmul a b ^^^ gmul a c) ∧
  (∀ a : Nibble, a ≠ 0#4 → ∃ b : Nibble, gmul a b = 1#4 ∧ ∀ c : Nibble, gmul a c = 1#4 → c = b) ∧
  gmul 0x1#4 0x1#4 = 1#4 ∧ gmul 0x2#4 0x9#4 = 1#4 ∧ gmul 0x3#4 0xE#4 = 1#4 ∧ gmul 0x4#4 0xD#4 = 1#4 ∧
  gmul 0x5#4 0xB#4 = 1#4 ∧ gmul 0x6#4 0x7#4 = 1#4 ∧ gmul 0x8#4 0xF#4 = 1#4 ∧ gmul 0xA#4 0xC#4 = 1#4

/-- R121. For every table that is a permutation, the inverse table is its inverse on both sides; the default is one; a CORE can be built with each, and with no table that is not one. -/
def Obligations.InverseTableInvertsEveryPermutation : Prop :=
  (∀ T : SBox, T.IsPermutation → ∀ x : Nibble, sboxInvAt T (sboxAt T x) = x ∧ sboxAt T (sboxInvAt T x) = x) ∧
  (∀ T : SBox, T.IsPermutation → ∀ x y : Nibble, sboxAt T x = y ↔ x = sboxInvAt T y) ∧
  defaultSbox.IsPermutation ∧
  (∀ l : List Nibble, SBox.IsPermutation ⟨l⟩ → State.configured? l = some (State.resetWith ⟨l⟩)) ∧
  (∀ l : List Nibble, ¬ SBox.IsPermutation ⟨l⟩ → SBox.ofList? l = none ∧ State.configured? l = none)

/-- R140, R141, R142. The layout maps are the ones given, and exact inverses of each other. -/
def Obligations.LayoutMapsAreInverse : Prop :=
  (∀ x : Block, intToVec x = ⟨x.extractLsb' 12 4, x.extractLsb' 4 4, x.extractLsb' 8 4, x.extractLsb' 0 4⟩) ∧
  (∀ s : StateVec, vecToInt s =
    (s.s0.setWidth 16 <<< 12) ||| (s.s2.setWidth 16 <<< 8) ||| (s.s1.setWidth 16 <<< 4) ||| s.s3.setWidth 16) ∧
  (∀ x : Block, vecToInt (intToVec x) = x) ∧ (∀ s : StateVec, intToVec (vecToInt s) = s)

/-- R152. The laws of the transforms, for every state vector, every key vector and every table. -/
def Obligations.TransformLaws : Prop :=
  (∀ s : StateVec, shiftRow (shiftRow s) = s) ∧
  (∀ k s : StateVec, addRoundKey k (addRoundKey k s) = s) ∧
  (∀ s : StateVec, inverseMixColumns (mixColumns s) = s ∧ mixColumns (inverseMixColumns s) = s) ∧
  (∀ (T : SBox) (s : StateVec), shiftRow (substituteNibbles T s) = substituteNibbles T (shiftRow s) ∧
    shiftRow (substituteNibblesInv T s) = substituteNibblesInv T (shiftRow s))

/-- R162, R163, R164. The expansion equations, for every table and key, and the round keys packed from them; RK0 is the key. -/
def Obligations.KeyExpansionEquations : Prop :=
  ∀ (T : SBox) (k : Block), ∃ w0 w1 w2 w3 w4 w5 : Byte,
    expandKey T k = ⟨w0, w1, w2, w3, w4, w5⟩ ∧
    w0 = k.extractLsb' 8 8 ∧ w1 = k.extractLsb' 0 8 ∧
    w2 = w0 ^^^ 0x80#8 ^^^ (sboxAt T (w1.extractLsb' 0 4) ++ sboxAt T (w1.extractLsb' 4 4)) ∧
    w3 = w2 ^^^ w1 ∧
    w4 = w2 ^^^ 0x30#8 ^^^ (sboxAt T (w3.extractLsb' 0 4) ++ sboxAt T (w3.extractLsb' 4 4)) ∧
    w5 = w4 ^^^ w3 ∧
    (expandKey T k).rk0 = k ∧ (expandKey T k).rk1 = w2 ++ w3 ∧ (expandKey T k).rk2 = w4 ++ w5

/-- R184, and R186's block-level form. Encryption and decryption by state vectors equal their block-level forms, for every table and store. -/
def Obligations.CipherEqualsItsBlockForm : Prop :=
  ∀ (T : SBox) (x : Block) (w : KeyStore),
    encrypt T x w = encryptBlock T x w ∧ decrypt T x w = decryptBlock T x w

/-- R188. Decryption inverts encryption and encryption inverts decryption, for every table that is a permutation, every store W and every block. -/
def Obligations.EncryptionAndDecryptionAreInverse : Prop :=
  ∀ T : SBox, T.IsPermutation → ∀ (w : KeyStore) (x : Block),
    decrypt T (encrypt T x w) w = x ∧ encrypt T (decrypt T x w) w = x

/-- R188 on the machine, built with any permutation: the completion of DEC on the RESULT of a completed ENC, under the same round-key store, returns the block that ENC was given, and the other way round, in every state. -/
def Obligations.DecCompletionUndoesEncCompletion : Prop :=
  ∀ (s u : State) (a b k b' k' : Block) (i j : Instr), (i = .enc ∧ j = .dec) ∨ (i = .dec ∧ j = .enc) →
    s.sbox.IsPermutation → u.sbox = s.sbox → s.pend = some ⟨i, a, b, k⟩ → u.w = s.w →
    ∃ t, act .complete s = .next t ∧
      (u.pend = some ⟨j, t.result, b', k'⟩ → ∃ v, act .complete u = .next v ∧ v.result = a ∧ v.w = s.w)

/-! ## Encoding -/

/-- R73. Every command word is exactly one of a bus error, a reserved OP and a command, and it is the command i exactly when it is the word of i: decoding and encoding agree for every command and every word. -/
def Obligations.CommandWordsAreClassified : Prop :=
  ∀ v : BusWord,
    (decodeCommand v = .illegalWord ↔ v.extractLsb' 4 28 ≠ 0#28) ∧
    (∀ op, decodeCommand v = .reservedOp op ↔
      v = op.setWidth 32 ∧ (op = 0x0#4 ∨ op = 0xC#4 ∨ op = 0xD#4 ∨ op = 0xE#4 ∨ op = 0xF#4)) ∧
    (∀ i, decodeCommand v = .command i ↔ v = encode i)

/-- The eleven words of the opcode table (R74), as written there, decode to their commands, through the decoder and through the table-word entry; the five reserved opcodes and a word with a reserved bit set decode to none. -/
def Obligations.TableWordsDecode : Prop :=
  [0x00000001#32, 0x00000002#32, 0x00000003#32, 0x00000004#32, 0x00000005#32, 0x00000006#32, 0x00000007#32,
    0x00000008#32, 0x00000009#32, 0x0000000A#32, 0x0000000B#32].map decodeCommand =
    [.command .gfmul, .command .sub, .command .isub, .command .shr, .command .addk, .command .mixc, .command .imixc,
      .command .rotsub, .command .keyexp, .command .enc, .command .dec] ∧
  [0x1, 0x2, 0x3, 0x4, 0x5, 0x6, 0x7, 0x8, 0x9, 0xA, 0xB].map (decodeTableWord 32) =
    [some .gfmul, some .sub, some .isub, some .shr, some .addk, some .mixc, some .imixc,
      some .rotsub, some .keyexp, some .enc, some .dec] ∧
  [0x00000000#32, 0x0000000C#32, 0x0000000D#32, 0x0000000E#32, 0x0000000F#32].map decodeCommand =
    [.reservedOp 0x0#4, .reservedOp 0xC#4, .reservedOp 0xD#4, .reservedOp 0xE#4, .reservedOp 0xF#4] ∧
  decodeCommand 0x00000010#32 = .illegalWord

/-- R74. No command word matches two rows of the opcode table. -/
def Obligations.OpcodeRowsNeverOverlap : Prop :=
  ∀ (v : BusWord) (r r' : OpcodeRow), r ∈ opcodeTable → r' ∈ opcodeTable →
    r.selects v = true → r'.selects v = true → r = r'

/-- R71. The request vector: its fields, its decoding for every request, and its encoding back for every vector that carries no data in a read. -/
def Obligations.RequestVectorsRoundTrip : Prop :=
  (∀ r : Request, decodeRequest (encodeRequest r) = r ∧ requestVectorWf (encodeRequest r) = true) ∧
  (∀ q : RequestVector, requestVectorWf q = true → encodeRequest (decodeRequest q) = q) ∧
  (∀ (off : Offset) (v : BusWord),
    (encodeRequest (.write off v)).getLsbD 38 = true ∧ (encodeRequest (.read off)).getLsbD 38 = false ∧
    (encodeRequest (.write off v)).extractLsb' 32 6 = off ∧ (encodeRequest (.read off)).extractLsb' 32 6 = off ∧
    (encodeRequest (.write off v)).extractLsb' 0 32 = v ∧ (encodeRequest (.read off)).extractLsb' 0 32 = 0#32) ∧
  encodeRequest (wr .key 0x0000A73B#32) = 0x480000A73B#39 ∧ encodeRequest (rd .status) = 0x0400000000#39

/-- R64. With a base aligned to 64 bytes, the CORE sees bits [5:0] of the address above it, wherever it is placed. -/
def Obligations.WindowOffsetIsTheLowAddressBits : Prop :=
  ∀ base address : Nat, baseWf base = true → base ≤ address →
    (windowOffset base address).toNat = (address - base) % 64 ∧ (windowOffset base address).toNat = address % 64

/-! ## The cycle level -/

/-- R68. Every run of cycles maps to a run of transaction-level steps: for all latencies and every list of port values, from every state of the cycle level, the cycles answer a next state whose architectural part is what the steps they stand for give from the same state. In one cycle a transaction's response is the one its step gives. The table is any table, the one in the state. -/
def Obligations.CyclesRefineTransactions : Prop :=
  (∀ (L : Latency) (qs : List Ports) (s : State), latencyWf L = true → CycleInv L s →
    ∃ t t', cycles L qs s = .next t ∧ actAll (runInputs L qs s) s = .next t' ∧
      architectural t = architectural t') ∧
  (∀ (L : Latency) (q : Ports) (s : State), latencyWf L = true → CycleInv L s → q.rst = false → q.req = true →
    ∃ t u, cycle L q s = .next t ∧ act (.host q.request) s = .next u ∧ t.resp = u.resp)

/-- Every cycle keeps the invariant of the cycle level, for every table and all latencies of at least 1. The invariant says what the orchestrator's registers hold, and those values are the model's choice, not the spec's: idle zeros (log 10), the values at issue (log 11), the phase at each edge (log 12), the counter (log 13), what K1 and K2 leave in the state-vector register (log 21). R39, R181 and R250 give the registers, the order of the phases and the latency. -/
def Obligations.CycleInvariantIsKept : Prop :=
  ∀ (L : Latency) (q : Ports) (s t : State), latencyWf L = true → CycleInv L s →
    cycle L q s = .next t → CycleInv L t

/-- The invariant of the cycle level holds at reset, for every table and latency. R230 says the orchestrator is idle and no value is observable: that the idle state-vector register and counter are 0 is the model's choice (log 10). -/
def Obligations.CycleInvariantHoldsAtReset : Prop :=
  ∀ (T : SBox) (L : Latency), CycleInv L (State.resetWith T)

/-- R250, R251. A cycle that writes a command's word to CTRL either rejects it, with ERR = 1 at once, or starts it. A command started at an edge is in flight through the next L - 1 edges whatever the host does short of reset, and complete, with DONE = 1, at edge L, where L is its latency and depends on the opcode alone: a STATUS read in the cycles up to edge L shows BUSY = 1, and one after it BUSY = 0 and DONE = 1. That the cycle counter is a number, 0 after issue, is the model's choice (logs 11, 13); R39 gives it no value, and here it only says that the command has just been started. -/
def Obligations.LatencyBoundsBusy : Prop :=
  (∀ (L : Latency) (q : Ports) (s : State) (i : Instr), s.pend = none →
    q.rst = false → q.req = true → q.we = true → q.addr = 0x00#6 → q.wdata = encode i →
    ∃ t, cycle L q s = .next t ∧
      (rejectionCause i s ≠ none → t.pend = none ∧ (statusWord t).getLsbD 3 = true) ∧
      (rejectionCause i s = none →
        t.pend = some ⟨i, s.dinA, s.dinB, s.key⟩ ∧ t.orch.cycles = 0 ∧ t.done = false)) ∧
  (∀ (L : Latency) (s : State) (p : Pending) (qs : List Ports), latencyWf L = true →
    s.pend = some p → s.orch.cycles = 0 → s.done = false → (∀ q ∈ qs, q.rst = false) →
    qs.length ≤ latencyOf L p.op →
    ∃ t, cycles L qs s = .next t ∧
      (qs.length < latencyOf L p.op → t.pend = some p ∧ t.done = false ∧ (statusWord t).getLsbD 0 = true) ∧
      (qs.length = latencyOf L p.op →
        t.pend = none ∧ (statusWord t).getLsbD 0 = false ∧ (statusWord t).getLsbD 1 = true))

/-- R181. The orchestrator's phases, however many have run, end in the result the command's rule gives: `encrypt`, `decrypt`, the unit's function, or `expandKey`, for every table. How many phases run before the completion edge (log 12), and what the state-vector register holds in between where the spec does not say (log 21), do not matter. -/
def Obligations.PhasesComputeTheCommand : Prop :=
  ∀ (T : SBox) (p : Pending) (w : KeyStore) (n : Nat),
    (p.op = .enc → vecToInt (orchFinish T p w (orchAfter T p w n)) = encrypt T p.a w) ∧
    (p.op = .dec → vecToInt (orchFinish T p w (orchAfter T p w n)) = decrypt T p.a w) ∧
    (p.op = .keyexp → storeOf p.k (orchRk1 T p (orchAfter T p w n)) (vecToInt (orchFinish T p w (orchAfter T p w n))) =
      expandKey T p.k) ∧
    (firstPhase p.op = .u → vecToInt (orchFinish T p w (orchAfter T p w n)) = unitResult T p)

/-- R231. A cycle with `rst` = 1 leaves every register at its reset value and the S-box as it is, and a transaction presented in it is answered `err` = 1, `rdata` = 0 and has no effect; holding `rst` has the effect of one cycle. -/
def Obligations.ResetCycleAnswersError : Prop :=
  ∀ (L : Latency) (q : Ports) (s : State), q.rst = true →
    ∃ t, cycle L q s = .next t ∧ architectural t = architectural (State.resetWith s.sbox) ∧
      (q.req = true → portsOut t = ⟨true, 0#32⟩) ∧
      (∀ q' : Ports, q'.rst = true → ∃ t', cycle L q' t = .next t' ∧ architectural t' = architectural t)

/-- R40. The S-box is a constant: no step, no command, no cycle and no reset writes it, and no host transaction reads or reaches it. -/
def Obligations.SboxIsAConstant : Prop :=
  (∀ (s t : State) (e : Input), act e s = .next t → t.sbox = s.sbox) ∧
  (∀ (i : Instr) (s t : State), exec i s = .next t → t.sbox = s.sbox) ∧
  (∀ (L : Latency) (qs : List Ports) (s t : State), cycles L qs s = .next t → t.sbox = s.sbox) ∧
  (∀ (r : Request) (s : State) (T : SBox),
    ∃ t, act (.host r) s = .next t ∧ act (.host r) { s with sbox := T } = .next { t with sbox := T })
end

