-- ==== Sys2Proof/Laws/State.lean ====
section
/-! SUPPORT. What each state update leaves in each field: one lemma per field per update, so that no proof unfolds an update. -/

namespace Sys2Proof.Machine

@[simp] theorem okay_key (x : BusWord) (s : State) : (okay x s).key = s.key := rfl
@[simp] theorem okay_dinA (x : BusWord) (s : State) : (okay x s).dinA = s.dinA := rfl
@[simp] theorem okay_dinB (x : BusWord) (s : State) : (okay x s).dinB = s.dinB := rfl
@[simp] theorem okay_result (x : BusWord) (s : State) : (okay x s).result = s.result := rfl
@[simp] theorem okay_done (x : BusWord) (s : State) : (okay x s).done = s.done := rfl
@[simp] theorem okay_kv (x : BusWord) (s : State) : (okay x s).kv = s.kv := rfl
@[simp] theorem okay_err (x : BusWord) (s : State) : (okay x s).err = s.err := rfl
@[simp] theorem okay_errCode (x : BusWord) (s : State) : (okay x s).errCode = s.errCode := rfl
@[simp] theorem okay_lastOp (x : BusWord) (s : State) : (okay x s).lastOp = s.lastOp := rfl
@[simp] theorem okay_w (x : BusWord) (s : State) : (okay x s).w = s.w := rfl
@[simp] theorem okay_pend (x : BusWord) (s : State) : (okay x s).pend = s.pend := rfl
@[simp] theorem okay_orch (x : BusWord) (s : State) : (okay x s).orch = s.orch := rfl
@[simp] theorem okay_sbox (x : BusWord) (s : State) : (okay x s).sbox = s.sbox := rfl
@[simp] theorem okay_inputs (x : BusWord) (s : State) : (okay x s).inputs = s.inputs := rfl
@[simp] theorem okay_resp (x : BusWord) (s : State) : (okay x s).resp = some { err := false, rdata := x } := rfl

@[simp] theorem busError_key (s : State) : (busError s).key = s.key := rfl
@[simp] theorem busError_dinA (s : State) : (busError s).dinA = s.dinA := rfl
@[simp] theorem busError_dinB (s : State) : (busError s).dinB = s.dinB := rfl
@[simp] theorem busError_result (s : State) : (busError s).result = s.result := rfl
@[simp] theorem busError_done (s : State) : (busError s).done = s.done := rfl
@[simp] theorem busError_kv (s : State) : (busError s).kv = s.kv := rfl
@[simp] theorem busError_err (s : State) : (busError s).err = s.err := rfl
@[simp] theorem busError_errCode (s : State) : (busError s).errCode = s.errCode := rfl
@[simp] theorem busError_lastOp (s : State) : (busError s).lastOp = s.lastOp := rfl
@[simp] theorem busError_w (s : State) : (busError s).w = s.w := rfl
@[simp] theorem busError_pend (s : State) : (busError s).pend = s.pend := rfl
@[simp] theorem busError_orch (s : State) : (busError s).orch = s.orch := rfl
@[simp] theorem busError_sbox (s : State) : (busError s).sbox = s.sbox := rfl
@[simp] theorem busError_inputs (s : State) : (busError s).inputs = s.inputs := rfl
@[simp] theorem busError_resp (s : State) : (busError s).resp = some { err := true, rdata := 0#32 } := rfl

@[simp] theorem rejectCommand_key (op : BitVec 4) (c : CmdErrorCause) (s : State) : (rejectCommand op c s).key = s.key := rfl
@[simp] theorem rejectCommand_dinA (op : BitVec 4) (c : CmdErrorCause) (s : State) : (rejectCommand op c s).dinA = s.dinA := rfl
@[simp] theorem rejectCommand_dinB (op : BitVec 4) (c : CmdErrorCause) (s : State) : (rejectCommand op c s).dinB = s.dinB := rfl
@[simp] theorem rejectCommand_result (op : BitVec 4) (c : CmdErrorCause) (s : State) : (rejectCommand op c s).result = s.result := rfl
@[simp] theorem rejectCommand_done (op : BitVec 4) (c : CmdErrorCause) (s : State) : (rejectCommand op c s).done = false := rfl
@[simp] theorem rejectCommand_kv (op : BitVec 4) (c : CmdErrorCause) (s : State) : (rejectCommand op c s).kv = s.kv := rfl
@[simp] theorem rejectCommand_err (op : BitVec 4) (c : CmdErrorCause) (s : State) : (rejectCommand op c s).err = true := rfl
@[simp] theorem rejectCommand_errCode (op : BitVec 4) (c : CmdErrorCause) (s : State) : (rejectCommand op c s).errCode = errorCode c := rfl
@[simp] theorem rejectCommand_lastOp (op : BitVec 4) (c : CmdErrorCause) (s : State) : (rejectCommand op c s).lastOp = op := rfl
@[simp] theorem rejectCommand_w (op : BitVec 4) (c : CmdErrorCause) (s : State) : (rejectCommand op c s).w = s.w := rfl
@[simp] theorem rejectCommand_pend (op : BitVec 4) (c : CmdErrorCause) (s : State) : (rejectCommand op c s).pend = s.pend := rfl
@[simp] theorem rejectCommand_orch (op : BitVec 4) (c : CmdErrorCause) (s : State) : (rejectCommand op c s).orch = s.orch := rfl
@[simp] theorem rejectCommand_sbox (op : BitVec 4) (c : CmdErrorCause) (s : State) : (rejectCommand op c s).sbox = s.sbox := rfl
@[simp] theorem rejectCommand_inputs (op : BitVec 4) (c : CmdErrorCause) (s : State) : (rejectCommand op c s).inputs = s.inputs := rfl
@[simp] theorem rejectCommand_resp (op : BitVec 4) (c : CmdErrorCause) (s : State) : (rejectCommand op c s).resp = some { err := false, rdata := 0#32 } := rfl

@[simp] theorem acceptCommand_key (i : Instr) (s : State) : (acceptCommand i s).key = s.key := rfl
@[simp] theorem acceptCommand_dinA (i : Instr) (s : State) : (acceptCommand i s).dinA = s.dinA := rfl
@[simp] theorem acceptCommand_dinB (i : Instr) (s : State) : (acceptCommand i s).dinB = s.dinB := rfl
@[simp] theorem acceptCommand_result (i : Instr) (s : State) : (acceptCommand i s).result = s.result := rfl
@[simp] theorem acceptCommand_done (i : Instr) (s : State) : (acceptCommand i s).done = false := rfl
@[simp] theorem acceptCommand_kv (i : Instr) (s : State) : (acceptCommand i s).kv = s.kv := rfl
@[simp] theorem acceptCommand_err (i : Instr) (s : State) : (acceptCommand i s).err = false := rfl
@[simp] theorem acceptCommand_errCode (i : Instr) (s : State) : (acceptCommand i s).errCode = errorCodeNone := rfl
@[simp] theorem acceptCommand_lastOp (i : Instr) (s : State) : (acceptCommand i s).lastOp = opcode i := rfl
@[simp] theorem acceptCommand_w (i : Instr) (s : State) : (acceptCommand i s).w = s.w := rfl
@[simp] theorem acceptCommand_pend (i : Instr) (s : State) : (acceptCommand i s).pend = some (snapshot i s) := rfl
@[simp] theorem acceptCommand_orch (i : Instr) (s : State) : (acceptCommand i s).orch = orchStart (snapshot i s) := rfl
@[simp] theorem acceptCommand_sbox (i : Instr) (s : State) : (acceptCommand i s).sbox = s.sbox := rfl
@[simp] theorem acceptCommand_inputs (i : Instr) (s : State) : (acceptCommand i s).inputs = s.inputs := rfl
@[simp] theorem acceptCommand_resp (i : Instr) (s : State) : (acceptCommand i s).resp = some { err := false, rdata := 0#32 } := rfl

@[simp] theorem endCommand_key (s : State) : (endCommand s).key = s.key := rfl
@[simp] theorem endCommand_dinA (s : State) : (endCommand s).dinA = s.dinA := rfl
@[simp] theorem endCommand_dinB (s : State) : (endCommand s).dinB = s.dinB := rfl
@[simp] theorem endCommand_result (s : State) : (endCommand s).result = s.result := rfl
@[simp] theorem endCommand_done (s : State) : (endCommand s).done = true := rfl
@[simp] theorem endCommand_kv (s : State) : (endCommand s).kv = s.kv := rfl
@[simp] theorem endCommand_err (s : State) : (endCommand s).err = s.err := rfl
@[simp] theorem endCommand_errCode (s : State) : (endCommand s).errCode = s.errCode := rfl
@[simp] theorem endCommand_lastOp (s : State) : (endCommand s).lastOp = s.lastOp := rfl
@[simp] theorem endCommand_w (s : State) : (endCommand s).w = s.w := rfl
@[simp] theorem endCommand_pend (s : State) : (endCommand s).pend = none := rfl
@[simp] theorem endCommand_orch (s : State) : (endCommand s).orch = Orch.idle := rfl
@[simp] theorem endCommand_sbox (s : State) : (endCommand s).sbox = s.sbox := rfl
@[simp] theorem endCommand_inputs (s : State) : (endCommand s).inputs = s.inputs := rfl
@[simp] theorem endCommand_resp (s : State) : (endCommand s).resp = s.resp := rfl

@[simp] theorem completeResult_key (r : Block) (s : State) : (completeResult r s).key = s.key := rfl
@[simp] theorem completeResult_dinA (r : Block) (s : State) : (completeResult r s).dinA = s.dinA := rfl
@[simp] theorem completeResult_dinB (r : Block) (s : State) : (completeResult r s).dinB = s.dinB := rfl
@[simp] theorem completeResult_result (r : Block) (s : State) : (completeResult r s).result = r := rfl
@[simp] theorem completeResult_done (r : Block) (s : State) : (completeResult r s).done = true := rfl
@[simp] theorem completeResult_kv (r : Block) (s : State) : (completeResult r s).kv = s.kv := rfl
@[simp] theorem completeResult_err (r : Block) (s : State) : (completeResult r s).err = s.err := rfl
@[simp] theorem completeResult_errCode (r : Block) (s : State) : (completeResult r s).errCode = s.errCode := rfl
@[simp] theorem completeResult_lastOp (r : Block) (s : State) : (completeResult r s).lastOp = s.lastOp := rfl
@[simp] theorem completeResult_w (r : Block) (s : State) : (completeResult r s).w = s.w := rfl
@[simp] theorem completeResult_pend (r : Block) (s : State) : (completeResult r s).pend = none := rfl
@[simp] theorem completeResult_orch (r : Block) (s : State) : (completeResult r s).orch = Orch.idle := rfl
@[simp] theorem completeResult_sbox (r : Block) (s : State) : (completeResult r s).sbox = s.sbox := rfl
@[simp] theorem completeResult_inputs (r : Block) (s : State) : (completeResult r s).inputs = s.inputs := rfl
@[simp] theorem completeResult_resp (r : Block) (s : State) : (completeResult r s).resp = s.resp := rfl

@[simp] theorem completeKeys_key (v : KeyStore) (s : State) : (completeKeys v s).key = s.key := rfl
@[simp] theorem completeKeys_dinA (v : KeyStore) (s : State) : (completeKeys v s).dinA = s.dinA := rfl
@[simp] theorem completeKeys_dinB (v : KeyStore) (s : State) : (completeKeys v s).dinB = s.dinB := rfl
@[simp] theorem completeKeys_result (v : KeyStore) (s : State) : (completeKeys v s).result = s.result := rfl
@[simp] theorem completeKeys_done (v : KeyStore) (s : State) : (completeKeys v s).done = true := rfl
@[simp] theorem completeKeys_kv (v : KeyStore) (s : State) : (completeKeys v s).kv = true := rfl
@[simp] theorem completeKeys_err (v : KeyStore) (s : State) : (completeKeys v s).err = s.err := rfl
@[simp] theorem completeKeys_errCode (v : KeyStore) (s : State) : (completeKeys v s).errCode = s.errCode := rfl
@[simp] theorem completeKeys_lastOp (v : KeyStore) (s : State) : (completeKeys v s).lastOp = s.lastOp := rfl
@[simp] theorem completeKeys_w (v : KeyStore) (s : State) : (completeKeys v s).w = v := rfl
@[simp] theorem completeKeys_pend (v : KeyStore) (s : State) : (completeKeys v s).pend = none := rfl
@[simp] theorem completeKeys_orch (v : KeyStore) (s : State) : (completeKeys v s).orch = Orch.idle := rfl
@[simp] theorem completeKeys_sbox (v : KeyStore) (s : State) : (completeKeys v s).sbox = s.sbox := rfl
@[simp] theorem completeKeys_inputs (v : KeyStore) (s : State) : (completeKeys v s).inputs = s.inputs := rfl
@[simp] theorem completeKeys_resp (v : KeyStore) (s : State) : (completeKeys v s).resp = s.resp := rfl

@[simp] theorem setKey_key (x : Block) (s : State) : (setKey x s).key = x := rfl
@[simp] theorem setKey_dinA (x : Block) (s : State) : (setKey x s).dinA = s.dinA := rfl
@[simp] theorem setKey_dinB (x : Block) (s : State) : (setKey x s).dinB = s.dinB := rfl
@[simp] theorem setKey_result (x : Block) (s : State) : (setKey x s).result = s.result := rfl
@[simp] theorem setKey_done (x : Block) (s : State) : (setKey x s).done = s.done := rfl
@[simp] theorem setKey_kv (x : Block) (s : State) : (setKey x s).kv = false := rfl
@[simp] theorem setKey_err (x : Block) (s : State) : (setKey x s).err = s.err := rfl
@[simp] theorem setKey_errCode (x : Block) (s : State) : (setKey x s).errCode = s.errCode := rfl
@[simp] theorem setKey_lastOp (x : Block) (s : State) : (setKey x s).lastOp = s.lastOp := rfl
@[simp] theorem setKey_w (x : Block) (s : State) : (setKey x s).w = s.w := rfl
@[simp] theorem setKey_pend (x : Block) (s : State) : (setKey x s).pend = s.pend := rfl
@[simp] theorem setKey_orch (x : Block) (s : State) : (setKey x s).orch = s.orch := rfl
@[simp] theorem setKey_sbox (x : Block) (s : State) : (setKey x s).sbox = s.sbox := rfl
@[simp] theorem setKey_inputs (x : Block) (s : State) : (setKey x s).inputs = s.inputs := rfl
@[simp] theorem setKey_resp (x : Block) (s : State) : (setKey x s).resp = s.resp := rfl

@[simp] theorem setDinA_key (x : Block) (s : State) : (setDinA x s).key = s.key := rfl
@[simp] theorem setDinA_dinA (x : Block) (s : State) : (setDinA x s).dinA = x := rfl
@[simp] theorem setDinA_dinB (x : Block) (s : State) : (setDinA x s).dinB = s.dinB := rfl
@[simp] theorem setDinA_result (x : Block) (s : State) : (setDinA x s).result = s.result := rfl
@[simp] theorem setDinA_done (x : Block) (s : State) : (setDinA x s).done = s.done := rfl
@[simp] theorem setDinA_kv (x : Block) (s : State) : (setDinA x s).kv = s.kv := rfl
@[simp] theorem setDinA_err (x : Block) (s : State) : (setDinA x s).err = s.err := rfl
@[simp] theorem setDinA_errCode (x : Block) (s : State) : (setDinA x s).errCode = s.errCode := rfl
@[simp] theorem setDinA_lastOp (x : Block) (s : State) : (setDinA x s).lastOp = s.lastOp := rfl
@[simp] theorem setDinA_w (x : Block) (s : State) : (setDinA x s).w = s.w := rfl
@[simp] theorem setDinA_pend (x : Block) (s : State) : (setDinA x s).pend = s.pend := rfl
@[simp] theorem setDinA_orch (x : Block) (s : State) : (setDinA x s).orch = s.orch := rfl
@[simp] theorem setDinA_sbox (x : Block) (s : State) : (setDinA x s).sbox = s.sbox := rfl
@[simp] theorem setDinA_inputs (x : Block) (s : State) : (setDinA x s).inputs = s.inputs := rfl
@[simp] theorem setDinA_resp (x : Block) (s : State) : (setDinA x s).resp = s.resp := rfl

@[simp] theorem setDinB_key (x : Block) (s : State) : (setDinB x s).key = s.key := rfl
@[simp] theorem setDinB_dinA (x : Block) (s : State) : (setDinB x s).dinA = s.dinA := rfl
@[simp] theorem setDinB_dinB (x : Block) (s : State) : (setDinB x s).dinB = x := rfl
@[simp] theorem setDinB_result (x : Block) (s : State) : (setDinB x s).result = s.result := rfl
@[simp] theorem setDinB_done (x : Block) (s : State) : (setDinB x s).done = s.done := rfl
@[simp] theorem setDinB_kv (x : Block) (s : State) : (setDinB x s).kv = s.kv := rfl
@[simp] theorem setDinB_err (x : Block) (s : State) : (setDinB x s).err = s.err := rfl
@[simp] theorem setDinB_errCode (x : Block) (s : State) : (setDinB x s).errCode = s.errCode := rfl
@[simp] theorem setDinB_lastOp (x : Block) (s : State) : (setDinB x s).lastOp = s.lastOp := rfl
@[simp] theorem setDinB_w (x : Block) (s : State) : (setDinB x s).w = s.w := rfl
@[simp] theorem setDinB_pend (x : Block) (s : State) : (setDinB x s).pend = s.pend := rfl
@[simp] theorem setDinB_orch (x : Block) (s : State) : (setDinB x s).orch = s.orch := rfl
@[simp] theorem setDinB_sbox (x : Block) (s : State) : (setDinB x s).sbox = s.sbox := rfl
@[simp] theorem setDinB_inputs (x : Block) (s : State) : (setDinB x s).inputs = s.inputs := rfl
@[simp] theorem setDinB_resp (x : Block) (s : State) : (setDinB x s).resp = s.resp := rfl

@[simp] theorem resetStep_key (s : State) : (resetStep s).key = State.reset.key := rfl
@[simp] theorem resetStep_dinA (s : State) : (resetStep s).dinA = State.reset.dinA := rfl
@[simp] theorem resetStep_dinB (s : State) : (resetStep s).dinB = State.reset.dinB := rfl
@[simp] theorem resetStep_result (s : State) : (resetStep s).result = State.reset.result := rfl
@[simp] theorem resetStep_done (s : State) : (resetStep s).done = State.reset.done := rfl
@[simp] theorem resetStep_kv (s : State) : (resetStep s).kv = State.reset.kv := rfl
@[simp] theorem resetStep_err (s : State) : (resetStep s).err = State.reset.err := rfl
@[simp] theorem resetStep_errCode (s : State) : (resetStep s).errCode = State.reset.errCode := rfl
@[simp] theorem resetStep_lastOp (s : State) : (resetStep s).lastOp = State.reset.lastOp := rfl
@[simp] theorem resetStep_w (s : State) : (resetStep s).w = State.reset.w := rfl
@[simp] theorem resetStep_pend (s : State) : (resetStep s).pend = State.reset.pend := rfl
@[simp] theorem resetStep_orch (s : State) : (resetStep s).orch = State.reset.orch := rfl
@[simp] theorem resetStep_sbox (s : State) : (resetStep s).sbox = s.sbox := rfl
@[simp] theorem resetStep_inputs (s : State) : (resetStep s).inputs = s.inputs := rfl
@[simp] theorem resetStep_resp (s : State) : (resetStep s).resp = State.reset.resp := rfl

@[simp] theorem resetWith_key (T : SBox) : (State.resetWith T).key = State.reset.key := rfl
@[simp] theorem resetWith_dinA (T : SBox) : (State.resetWith T).dinA = State.reset.dinA := rfl
@[simp] theorem resetWith_dinB (T : SBox) : (State.resetWith T).dinB = State.reset.dinB := rfl
@[simp] theorem resetWith_result (T : SBox) : (State.resetWith T).result = State.reset.result := rfl
@[simp] theorem resetWith_done (T : SBox) : (State.resetWith T).done = State.reset.done := rfl
@[simp] theorem resetWith_kv (T : SBox) : (State.resetWith T).kv = State.reset.kv := rfl
@[simp] theorem resetWith_err (T : SBox) : (State.resetWith T).err = State.reset.err := rfl
@[simp] theorem resetWith_errCode (T : SBox) : (State.resetWith T).errCode = State.reset.errCode := rfl
@[simp] theorem resetWith_lastOp (T : SBox) : (State.resetWith T).lastOp = State.reset.lastOp := rfl
@[simp] theorem resetWith_w (T : SBox) : (State.resetWith T).w = State.reset.w := rfl
@[simp] theorem resetWith_pend (T : SBox) : (State.resetWith T).pend = State.reset.pend := rfl
@[simp] theorem resetWith_orch (T : SBox) : (State.resetWith T).orch = State.reset.orch := rfl
@[simp] theorem resetWith_sbox (T : SBox) : (State.resetWith T).sbox = T := rfl
@[simp] theorem resetWith_inputs (T : SBox) : (State.resetWith T).inputs = State.reset.inputs := rfl
@[simp] theorem resetWith_resp (T : SBox) : (State.resetWith T).resp = State.reset.resp := rfl

@[simp] theorem snapshot_op (i : Instr) (s : State) : (snapshot i s).op = i := rfl
@[simp] theorem snapshot_a (i : Instr) (s : State) : (snapshot i s).a = s.dinA := rfl
@[simp] theorem snapshot_b (i : Instr) (s : State) : (snapshot i s).b = s.dinB := rfl
@[simp] theorem snapshot_k (i : Instr) (s : State) : (snapshot i s).k = s.key := rfl

/-- BUSY is 0 exactly when nothing is in flight. -/
theorem busy_eq_false_iff (s : State) : s.busy = false ↔ s.pend = none := by
  simp [State.busy]

/-- BUSY is 1 exactly when PEND holds a command. -/
theorem busy_eq_true_iff (s : State) : s.busy = true ↔ ∃ p, s.pend = some p := by
  simp [State.busy, Option.isSome_iff_exists]

end Sys2Proof.Machine
end

