-- ==== Sys2Proof/Laws/Ops.lean ====
section
/-! SUPPORT. What each shared operation can do, said once: the life of a command, and a meaning as that life. -/

namespace Sys2Proof.Machine

/-- With nothing in flight, a command is issued. -/
theorem runCommand_idle {i : Instr} {cause : Option CmdErrorCause} {effect : Pending → State → State} {s : State}
    (h : s.pend = none) : runCommand i cause effect s = issueCommand i cause s := by
  simp [runCommand, h]

/-- The command in flight completes. -/
theorem runCommand_inFlight {i : Instr} {cause : Option CmdErrorCause} {effect : Pending → State → State} {s : State}
    {p : Pending} (h : s.pend = some p) (hi : p.op = i) : runCommand i cause effect s = effect p s := by
  simp [runCommand, h, hi]

/-- A command presented while another is in flight is turned away. -/
theorem runCommand_other {i : Instr} {cause : Option CmdErrorCause} {effect : Pending → State → State} {s : State}
    {p : Pending} (h : s.pend = some p) (hi : p.op ≠ i) : runCommand i cause effect s = busError s := by
  simp [runCommand, h, hi]

/-- A rejected issue. -/
@[simp] theorem issueCommand_some (i : Instr) (c : CmdErrorCause) (s : State) :
    issueCommand i (some c) s = rejectCommand (opcode i) c s := rfl

/-- An accepted issue. -/
@[simp] theorem issueCommand_none (i : Instr) (s : State) : issueCommand i none s = acceptCommand i s := rfl

/-- NOKEY is no cause exactly when KV = 1. -/
theorem noKeyCause_eq_none_iff (s : State) : noKeyCause s = none ↔ s.kv = true := by
  simp [noKeyCause]

/-- RANGE is no cause for GFMUL exactly when both operands are nibbles. -/
theorem nibbleRangeCause_eq_none_iff (s : State) :
    nibbleRangeCause s = none ↔ s.dinA.extractLsb' 4 12 = 0#12 ∧ s.dinB.extractLsb' 4 12 = 0#12 := by
  simp [nibbleRangeCause, notNibbles]

/-- RANGE is no cause for ROTSUB exactly when the operand is a byte. -/
theorem byteRangeCause_eq_none_iff (s : State) : byteRangeCause s = none ↔ s.dinA.extractLsb' 8 8 = 0#8 := by
  simp [byteRangeCause, notByte]

/-- What a command's completion does to a state, by the command (R56, R75). -/
def completion (i : Instr) (p : Pending) (s : State) : State :=
  match i with
  | .gfmul  => completeResult (gfmulResult p) s
  | .sub    => completeResult (subResult s.sbox p) s
  | .isub   => completeResult (isubResult s.sbox p) s
  | .shr    => completeResult (shrResult p) s
  | .addk   => completeResult (addkResult p) s
  | .mixc   => completeResult (mixcResult p) s
  | .imixc  => completeResult (imixcResult p) s
  | .rotsub => completeResult (rotsubResult s.sbox p) s
  | .keyexp => completeKeys (expandKey s.sbox p.k) s
  | .enc    => completeResult (encrypt s.sbox p.a s.w) s
  | .dec    => completeResult (decrypt s.sbox p.a s.w) s

end Sys2Proof.Machine
end

