-- ==== Sys2Proof/Laws/Exec.lean ====
section
/-! SUPPORT. Every meaning is one step of a command's life, and every step answers a next state. Proofs cite these instead of unfolding `exec`. -/

namespace Sys2Proof.Machine

/-- Every command runs its life over its own rejection cause and its own completion. -/
theorem exec_eq_runCommand (i : Instr) (s : State) :
    exec i s = .next (runCommand i (rejectionCause i s) (completion i) s) := by
  cases i <;> simp [exec, execGfmul, execSub, execIsub, execShr, execAddk, execMixc, execImixc, execRotsub, execKeyexp,
    execEnc, execDec, rejectionCause, runCommand, completion]

/-- With nothing in flight, `exec` issues. -/
theorem exec_idle {i : Instr} {s : State} (h : s.pend = none) :
    exec i s = .next (issueCommand i (rejectionCause i s) s) := by
  rw [exec_eq_runCommand, runCommand_idle h]

/-- The command in flight completes. -/
theorem exec_inFlight {s : State} {p : Pending} (h : s.pend = some p) :
    exec p.op s = .next (completion p.op p s) := by
  rw [exec_eq_runCommand, runCommand_inFlight h rfl]

/-- What a completion leaves: BUSY = 0, DONE = 1, the orchestrator idle, and KEY, DIN_A, DIN_B, ERR, ERRCODE, LASTOP, the stream, the response and the S-box as they were. -/
theorem completion_frame (i : Instr) (p : Pending) (s : State) :
    (completion i p s).pend = none ∧ (completion i p s).done = true ∧ (completion i p s).orch = Orch.idle ∧
    (completion i p s).key = s.key ∧ (completion i p s).dinA = s.dinA ∧ (completion i p s).dinB = s.dinB ∧
    (completion i p s).err = s.err ∧ (completion i p s).errCode = s.errCode ∧ (completion i p s).lastOp = s.lastOp ∧
    (completion i p s).inputs = s.inputs ∧ (completion i p s).resp = s.resp ∧ (completion i p s).sbox = s.sbox := by
  cases i <;> simp [completion]

/-- Only KEYEXP's completion writes the round-key store and KV. -/
theorem completion_keys {i : Instr} (h : i ≠ .keyexp) (p : Pending) (s : State) :
    (completion i p s).w = s.w ∧ (completion i p s).kv = s.kv := by
  cases i <;> simp_all [completion]

end Sys2Proof.Machine
end

