-- ==== Sys2Proof/Laws/Bus.lean ====
section
/-! SUPPORT. What a step can do, said once: the step as an action on the head of the stream, and the cases of each action. -/

namespace Sys2Proof.Machine

/-- A step with an entry on the stream acts on it. -/
theorem step_cons {s : State} {e : Input} {rest : List Input} (h : s.inputs = e :: rest) :
    step s = act e { s with inputs := rest } := by
  simp [step, takeInput, h]

/-- A step with an empty stream is the engine's turn. -/
theorem step_nil {s : State} (h : s.inputs = []) : step s = act .complete s := by
  simp [step, takeInput, h]

/-- The engine's turn with nothing in flight changes nothing. -/
theorem completeStep_idle {s : State} (h : s.pend = none) : completeStep s = .next s := by
  simp [completeStep, h]

/-- The engine's turn completes the command in flight. -/
theorem completeStep_inFlight {s : State} {p : Pending} (h : s.pend = some p) :
    completeStep s = .next (completion p.op p s) := by
  simp [completeStep, h, exec_inFlight h]

/-- A read is a bus error or an OKAY response, and changes nothing else. -/
theorem hostRead_cases (off : Offset) (s : State) : ∃ r, hostRead off s = { s with resp := some r } := by
  unfold hostRead
  split
  · exact ⟨_, rfl⟩
  · exact ⟨_, rfl⟩

/-- What a write to an operand register can do. -/
theorem writeOperand_cases (set : Block → State → State) (v : BusWord) (s : State) :
    writeOperand set v s = busError s ∨
    (tooWide v = false ∧ s.pend = none ∧ writeOperand set v s = okay 0#32 (set (writtenBlock v) s)) := by
  unfold writeOperand
  split
  · exact .inl rfl
  · split
    · exact .inl rfl
    · exact .inr ⟨by simpa using ‹¬tooWide v = true›, by simpa [State.busy] using ‹¬s.busy = true›, rfl⟩

/-- What a write to CTRL can do: a bus error, a BADOP rejection, or the issue of a command. -/
theorem writeCtrl_cases (v : BusWord) (s : State) :
    writeCtrl v s = .next (busError s) ∨
    (∃ op, s.pend = none ∧ decodeCommand v = .reservedOp op ∧ writeCtrl v s = .next (rejectCommand op .badOp s)) ∨
    (∃ i, s.pend = none ∧ decodeCommand v = .command i ∧
      writeCtrl v s = .next (issueCommand i (rejectionCause i s) s)) := by
  unfold writeCtrl
  by_cases hb : s.busy = true
  · cases decodeCommand v <;> simp [hb]
  · have hp : s.pend = none := by simpa [State.busy] using hb
    cases hd : decodeCommand v with
    | illegalWord => exact .inl rfl
    | reservedOp op => exact .inr (.inl ⟨op, hp, rfl, by simp [hb]⟩)
    | command i => exact .inr (.inr ⟨i, hp, rfl, by simp [hb, exec_idle hp]⟩)

/-- What a host write can do: a bus error, a write of an operand register, or a write of CTRL. -/
theorem hostWrite_cases (off : Offset) (v : BusWord) (s : State) :
    hostWrite off v s = .next (busError s) ∨
    (regAt? off = some .ctrl ∧ hostWrite off v s = writeCtrl v s) ∨
    (regAt? off = some .key ∧ hostWrite off v s = .next (writeOperand setKey v s)) ∨
    (regAt? off = some .dinA ∧ hostWrite off v s = .next (writeOperand setDinA v s)) ∨
    (regAt? off = some .dinB ∧ hostWrite off v s = .next (writeOperand setDinB v s)) := by
  unfold hostWrite
  cases h : regAt? off with
  | none => simp
  | some r => cases r <;> simp

/-- The next states one step can lead to, each with what it needs (R50). -/
inductive Moves (e : Input) (s : State) : State → Prop
  | read (off : Offset) (r : Response) (he : e = .host (.read off)) : Moves e s { s with resp := some r }
  | refused (off : Offset) (v : BusWord) (he : e = .host (.write off v)) : Moves e s (busError s)
  | key (off : Offset) (v : BusWord) (he : e = .host (.write off v)) (hr : regAt? off = some .key)
      (hw : tooWide v = false) (hp : s.pend = none) : Moves e s (okay 0#32 (setKey (writtenBlock v) s))
  | dinA (off : Offset) (v : BusWord) (he : e = .host (.write off v)) (hr : regAt? off = some .dinA)
      (hw : tooWide v = false) (hp : s.pend = none) : Moves e s (okay 0#32 (setDinA (writtenBlock v) s))
  | dinB (off : Offset) (v : BusWord) (he : e = .host (.write off v)) (hr : regAt? off = some .dinB)
      (hw : tooWide v = false) (hp : s.pend = none) : Moves e s (okay 0#32 (setDinB (writtenBlock v) s))
  | badOp (off : Offset) (v : BusWord) (op : BitVec 4) (he : e = .host (.write off v)) (hr : regAt? off = some .ctrl)
      (hd : decodeCommand v = .reservedOp op) (hp : s.pend = none) : Moves e s (rejectCommand op .badOp s)
  | issue (off : Offset) (v : BusWord) (i : Instr) (he : e = .host (.write off v)) (hr : regAt? off = some .ctrl)
      (hd : decodeCommand v = .command i) (hp : s.pend = none) : Moves e s (issueCommand i (rejectionCause i s) s)
  | idle (he : e = .complete) (hp : s.pend = none) : Moves e s s
  | complete (p : Pending) (he : e = .complete) (hp : s.pend = some p) : Moves e s (completion p.op p s)
  | reset (he : e = .reset) : Moves e s (resetStep s)

/-- Every action answers a next state, and one of the cases of `Moves` says which. -/
theorem act_moves (e : Input) (s : State) : ∃ t, act e s = .next t ∧ Moves e s t := by
  cases e with
  | host r =>
    cases r with
    | read off =>
      obtain ⟨r, h⟩ := hostRead_cases off s
      exact ⟨_, by simp only [act, transaction, h], .read off r rfl⟩
    | write off v =>
      simp only [act, transaction]
      rcases hostWrite_cases off v s with h | ⟨hr, h⟩ | ⟨hr, h⟩ | ⟨hr, h⟩ | ⟨hr, h⟩ <;> rw [h]
      · exact ⟨_, rfl, .refused off v rfl⟩
      · rcases writeCtrl_cases v s with h | ⟨op, hp, hd, h⟩ | ⟨i, hp, hd, h⟩ <;> rw [h]
        · exact ⟨_, rfl, .refused off v rfl⟩
        · exact ⟨_, rfl, .badOp off v op rfl hr hd hp⟩
        · exact ⟨_, rfl, .issue off v i rfl hr hd hp⟩
      · rcases writeOperand_cases setKey v s with h | ⟨hw, hp, h⟩ <;> rw [h]
        · exact ⟨_, rfl, .refused off v rfl⟩
        · exact ⟨_, rfl, .key off v rfl hr hw hp⟩
      · rcases writeOperand_cases setDinA v s with h | ⟨hw, hp, h⟩ <;> rw [h]
        · exact ⟨_, rfl, .refused off v rfl⟩
        · exact ⟨_, rfl, .dinA off v rfl hr hw hp⟩
      · rcases writeOperand_cases setDinB v s with h | ⟨hw, hp, h⟩ <;> rw [h]
        · exact ⟨_, rfl, .refused off v rfl⟩
        · exact ⟨_, rfl, .dinB off v rfl hr hw hp⟩
  | complete =>
    cases hp : s.pend with
    | none => exact ⟨s, by simp [act, completeStep_idle hp], .idle rfl hp⟩
    | some p => exact ⟨_, by simp only [act, completeStep_inFlight hp], .complete p rfl hp⟩
  | reset => exact ⟨_, rfl, .reset rfl⟩

/-- No step writes the S-box (10_state.md R40). -/
theorem Moves.sbox_eq {e : Input} {s t : State} (m : Moves e s t) : t.sbox = s.sbox := by
  cases m with
  | issue off v i => cases h : rejectionCause i s <;> simp
  | complete p => exact (completion_frame p.op p s).2.2.2.2.2.2.2.2.2.2.2
  | _ => rfl

end Sys2Proof.Machine
end

