-- ==== Sys2Proof/Laws/Fields.lean ====
section
/-! SUPPORT. The fields of a block: taking apart what was put together, putting together what was taken apart, and xor field by field. -/

namespace Sys2Proof.Machine

/-- The bits of four nibbles put together. -/
theorem packNibbles_bit (a b c d : Nibble) (i : Nat) : (packNibbles a b c d).getLsbD i =
    if i < 4 then d.getLsbD i else if i - 4 < 4 then c.getLsbD (i - 4)
    else if i - 4 - 4 < 4 then b.getLsbD (i - 4 - 4) else a.getLsbD (i - 4 - 4 - 4) := by
  change (a ++ b ++ c ++ d : BitVec (4 + 4 + 4 + 4)).getLsbD i = _
  simp only [BitVec.getLsbD_append]

/-- The bits of two bytes put together. -/
theorem packBytes_bit (a b : Byte) (i : Nat) :
    (packBytes a b).getLsbD i = if i < 8 then b.getLsbD i else a.getLsbD (i - 8) := by
  change (a ++ b : BitVec (8 + 8)).getLsbD i = _
  simp only [BitVec.getLsbD_append]

@[simp] theorem nib0_pack (a b c d : Nibble) : nib0 (packNibbles a b c d) = a := by
  refine BitVec.eq_of_getLsbD_eq fun i hi => ?_
  simp only [nib0, BitVec.getLsbD_extractLsb', packNibbles_bit]
  interval_cases i <;> rfl

@[simp] theorem nib1_pack (a b c d : Nibble) : nib1 (packNibbles a b c d) = b := by
  refine BitVec.eq_of_getLsbD_eq fun i hi => ?_
  simp only [nib1, BitVec.getLsbD_extractLsb', packNibbles_bit]
  interval_cases i <;> rfl

@[simp] theorem nib2_pack (a b c d : Nibble) : nib2 (packNibbles a b c d) = c := by
  refine BitVec.eq_of_getLsbD_eq fun i hi => ?_
  simp only [nib2, BitVec.getLsbD_extractLsb', packNibbles_bit]
  interval_cases i <;> rfl

@[simp] theorem nib3_pack (a b c d : Nibble) : nib3 (packNibbles a b c d) = d := by
  refine BitVec.eq_of_getLsbD_eq fun i hi => ?_
  simp only [nib3, BitVec.getLsbD_extractLsb', packNibbles_bit]
  interval_cases i <;> rfl

/-- A block is its four nibbles. -/
@[simp] theorem pack_nibs (x : Block) : packNibbles (nib0 x) (nib1 x) (nib2 x) (nib3 x) = x := by
  refine BitVec.eq_of_getLsbD_eq fun i hi => ?_
  simp only [nib0, nib1, nib2, nib3, BitVec.getLsbD_extractLsb', packNibbles_bit]
  interval_cases i <;> rfl

theorem nib0_xor (x y : Block) : nib0 (x ^^^ y) = nib0 x ^^^ nib0 y := BitVec.extractLsb'_xor

theorem nib1_xor (x y : Block) : nib1 (x ^^^ y) = nib1 x ^^^ nib1 y := BitVec.extractLsb'_xor

theorem nib2_xor (x y : Block) : nib2 (x ^^^ y) = nib2 x ^^^ nib2 y := BitVec.extractLsb'_xor

theorem nib3_xor (x y : Block) : nib3 (x ^^^ y) = nib3 x ^^^ nib3 y := BitVec.extractLsb'_xor

@[simp] theorem hiByte_pack (a b : Byte) : hiByte (packBytes a b) = a := by
  refine BitVec.eq_of_getLsbD_eq fun i hi => ?_
  simp only [hiByte, BitVec.getLsbD_extractLsb', packBytes_bit]
  interval_cases i <;> rfl

@[simp] theorem loByte_pack (a b : Byte) : loByte (packBytes a b) = b := by
  refine BitVec.eq_of_getLsbD_eq fun i hi => ?_
  simp only [loByte, BitVec.getLsbD_extractLsb', packBytes_bit]
  interval_cases i <;> rfl

/-- A block is its two bytes. -/
@[simp] theorem pack_bytes (x : Block) : packBytes (hiByte x) (loByte x) = x := by
  refine BitVec.eq_of_getLsbD_eq fun i hi => ?_
  simp only [hiByte, loByte, BitVec.getLsbD_extractLsb', packBytes_bit]
  interval_cases i <;> rfl

end Sys2Proof.Machine
end

