-- ==== Sys2Proof/Laws/PerInstr.lean ====
section
/-! SUPPORT. What holds of every command as syntax, one lemma per constructor: its word is a legal command word, the zero-extension of an opcode from 1 to 0xB (30_encoding.md R72, R74). -/

namespace Sys2Proof.Laws.CommandWord

/-- The command word of i is well formed, its OP field is one of 1 to 0xB, and nothing else is in it. -/
def Statement (i : Instr) : Prop :=
  commandWordWf (encode i) = true ∧ encode i = (opcode i).setWidth 32 ∧ 1 ≤ (opcode i).toNat ∧ (opcode i).toNat ≤ 0xB

theorem gfmul : Statement .gfmul := by unfold Statement; decide
theorem sub : Statement .sub := by unfold Statement; decide
theorem isub : Statement .isub := by unfold Statement; decide
theorem shr : Statement .shr := by unfold Statement; decide
theorem addk : Statement .addk := by unfold Statement; decide
theorem mixc : Statement .mixc := by unfold Statement; decide
theorem imixc : Statement .imixc := by unfold Statement; decide
theorem rotsub : Statement .rotsub := by unfold Statement; decide
theorem keyexp : Statement .keyexp := by unfold Statement; decide
theorem enc : Statement .enc := by unfold Statement; decide
theorem dec : Statement .dec := by unfold Statement; decide

end Sys2Proof.Laws.CommandWord
end

