-- ==== Sys2Proof/Tests/Slice0.lean ====
section
/-! SUPPORT. Tests on fixed values, with expected results from spec/ (30_encoding.md R74, R76; 95_test_vectors.md; the rules named at each), and for every obligation with hypotheses a witness that meets them. -/

open Sys2Proof Sys2Proof.Machine Sys2Proof.PseudoCode

namespace Sys2Proof.Tests

/-! ## Helpers -/

/-- The next state, if there is one. -/
def nextOf (o : Host.Outcome State Fault Refusal) : Option State :=
  match o with
  | .next t => some t
  | .fault _ => none
  | .refused _ => none

/-- The next state's response. -/
def respOf (o : Host.Outcome State Fault Refusal) : Option Response := (nextOf o).bind State.resp

/-- The next state's RESULT. -/
def resultOf (o : Host.Outcome State Fault Refusal) : Option Block := (nextOf o).map State.result

/-- The word a read of STATUS would return in the next state. -/
def statusOf (o : Host.Outcome State Fault Refusal) : Option BusWord := (nextOf o).map statusWord

/-- W after the expansion of KEY 0xA73B: V-KEY-1. -/
def keysA73B : KeyStore := ⟨0xA7#8, 0x3B#8, 0x1C#8, 0x27#8, 0x76#8, 0x51#8⟩

/-- KEY 0xA73B expanded, operands loaded, nothing in flight. -/
def ready (a b : Block) : State := { State.reset with key := 0xA73B#16, dinA := a, dinB := b, w := keysA73B, kv := true }

/-- A permutation that is not the default: nibble n is replaced by 15 - n. -/
def complementSbox : SBox :=
  ⟨[0xF#4, 0xE#4, 0xD#4, 0xC#4, 0xB#4, 0xA#4, 0x9#4, 0x8#4, 0x7#4, 0x6#4, 0x5#4, 0x4#4, 0x3#4, 0x2#4, 0x1#4, 0x0#4]⟩

/-- Command i in flight from those operands. -/
def inFlight (i : Instr) (a b : Block) : State :=
  { ready a b with lastOp := opcode i, pend := some ⟨i, a, b, 0xA73B#16⟩, orch := orchStart ⟨i, a, b, 0xA73B#16⟩ }

/-- A command issued by its word, as the first step from the state. -/
def issueByWord (w : Nat) (s : State) : Option BusWord := statusOf (step (s.withFetchWord 32 w))

/-! ## Decoding: command words written out, bits [31:4] zero and OP in [3:0] (R72, R74) -/

theorem test_decode_gfmul : decodeCommand 0b00000000000000000000000000000001#32 = .command .gfmul := by decide
theorem test_decode_sub : decodeCommand 0b00000000000000000000000000000010#32 = .command .sub := by decide
theorem test_decode_isub : decodeCommand 0b00000000000000000000000000000011#32 = .command .isub := by decide
theorem test_decode_shr : decodeCommand 0b00000000000000000000000000000100#32 = .command .shr := by decide
theorem test_decode_addk : decodeCommand 0b00000000000000000000000000000101#32 = .command .addk := by decide
theorem test_decode_mixc : decodeCommand 0b00000000000000000000000000000110#32 = .command .mixc := by decide
theorem test_decode_imixc : decodeCommand 0b00000000000000000000000000000111#32 = .command .imixc := by decide
theorem test_decode_rotsub : decodeCommand 0b00000000000000000000000000001000#32 = .command .rotsub := by decide
theorem test_decode_keyexp : decodeCommand 0b00000000000000000000000000001001#32 = .command .keyexp := by decide
theorem test_decode_enc : decodeCommand 0b00000000000000000000000000001010#32 = .command .enc := by decide
theorem test_decode_dec : decodeCommand 0b00000000000000000000000000001011#32 = .command .dec := by decide

/-- Reserved OP (R76). -/
theorem test_decode_reserved : [0x0#32, 0xC#32, 0xD#32, 0xE#32, 0xF#32].map decodeCommand =
    [.reservedOp 0x0#4, .reservedOp 0xC#4, .reservedOp 0xD#4, .reservedOp 0xE#4, .reservedOp 0xF#4] := by decide

/-- Illegal words, the lowest and the highest reserved bit and an all-ones word (R76). -/
theorem test_decode_illegal : [0x00000011#32, 0x80000001#32, 0xFFFFFFFF#32].map decodeCommand =
    [.illegalWord, .illegalWord, .illegalWord] := by decide

/-- The table-word entry: each opcode, and none for a reserved one, an illegal word or a number wider than a word. -/
theorem test_table_words : (List.range 17).map (decodeTableWord 32) =
    [none, some .gfmul, some .sub, some .isub, some .shr, some .addk, some .mixc, some .imixc, some .rotsub,
      some .keyexp, some .enc, some .dec, none, none, none, none, none] := by decide
theorem test_table_words_wide : decodeTableWord 64 0x100000001 = none ∧ decodeTableWord 8 0x0A = some .enc := by decide

/-- Request vectors of R71's examples and of P1 (95_test_vectors.md). -/
theorem test_request_vectors : decodeRequest 0x480000A73B#39 = wr .key 0x0000A73B#32 ∧
    decodeRequest 0x0400000000#39 = rd .status ∧ encodeRequest (cmd .keyexp) = 0x4000000009#39 := by decide

/-- The window's map (R22), with misaligned and reserved offsets (R58). -/
theorem test_window_map : [0x00#6, 0x04#6, 0x08#6, 0x0C#6, 0x10#6, 0x14#6, 0x18#6, 0x1C#6, 0x20#6, 0x24#6, 0x3C#6, 0x01#6, 0x0A#6, 0x23#6].map regAt? =
    [some .ctrl, some .status, some .key, some .dinA, some .dinB, some .result, some .rk0, some .rk1, some .rk2,
      none, none, none, none, none] := by decide

/-! ## Well-formedness: what each check refuses -/

theorem smoke_command_word : commandWordWf 0x00000010#32 = false ∧ commandWordWf 0x80000000#32 = false ∧ commandWordWf 0x0000000F#32 = true := by decide
theorem smoke_request_vector : requestVectorWf 0x0400000001#39 = false ∧ requestVectorWf 0x4400000001#39 = true := by decide
theorem smoke_sbox_repeat : sboxWf ⟨[0x9#4, 0x9#4, 0xA#4, 0xB#4, 0xD#4, 0x1#4, 0x8#4, 0x5#4, 0x6#4, 0x2#4, 0x0#4, 0x3#4, 0xC#4, 0xE#4, 0xF#4, 0x7#4]⟩ = false := by decide
theorem smoke_sbox_short : sboxWf ⟨[0x0#4, 0x1#4]⟩ = false ∧ SBox.ofList? [0x0#4, 0x1#4] = none ∧ State.configured? [0x0#4, 0x1#4] = none := by decide
theorem smoke_sbox_default : sboxWf defaultSbox = true ∧ SBox.ofList? defaultSbox.entries = some defaultSbox := by decide
theorem smoke_latency : latencyWf ⟨0, 1, 1⟩ = false ∧ latencyWf ⟨1, 0, 1⟩ = false ∧ latencyWf ⟨1, 1, 0⟩ = false ∧ latencyWf referenceLatency = true := by decide
theorem smoke_base : baseWf 0x1020 = false ∧ baseWf 0x1040 = true := by decide

/-! ## The commands: one completion each, from 95_test_vectors.md, and one issue or rejection -/

/-- V-GF-12. -/
theorem test_gfmul : resultOf (exec .gfmul (inFlight .gfmul 0x000E#16 0x000D#16)) = some 0x000A#16 := by decide
/-- RANGE on DIN_B alone (R202): LASTOP 1, ERRCODE 3, ERR, KV. -/
theorem test_gfmul_range : issueByWord 0x1 (ready 0x0001#16 0x0010#16) = some 0x0000013C#32 := by decide
/-- V-SUB-4. -/
theorem test_sub : resultOf (exec .sub (inFlight .sub 0x1234#16 0#16)) = some 0x4ABD#16 := by decide
theorem test_sub_issue : issueByWord 0x2 (ready 0x1234#16 0#16) = some 0x00000205#32 := by decide
/-- V-ISUB-1. -/
theorem test_isub : resultOf (exec .isub (inFlight .isub 0x7961#16 0#16)) = some 0xF085#16 := by decide
theorem test_isub_issue : issueByWord 0x3 (ready 0x7961#16 0#16) = some 0x00000305#32 := by decide
/-- V-SHR-5. -/
theorem test_shr : resultOf (exec .shr (inFlight .shr 0x1234#16 0#16)) = some 0x1432#16 := by decide
theorem test_shr_issue : issueByWord 0x4 (ready 0x1234#16 0#16) = some 0x00000405#32 := by decide
/-- V-ADDK-1. -/
theorem test_addk : resultOf (exec .addk (inFlight .addk 0xECA2#16 0x1C27#16)) = some 0xF085#16 := by decide
theorem test_addk_issue : issueByWord 0x5 (ready 0xECA2#16 0x1C27#16) = some 0x00000505#32 := by decide
/-- V-MIX-5, which tells the formulas from the document's prose matrix (C2). -/
theorem test_mixc : resultOf (exec .mixc (inFlight .mixc 0x1000#16 0#16)) = some 0x1400#16 := by decide
theorem test_mixc_issue : issueByWord 0x6 (ready 0x1000#16 0#16) = some 0x00000605#32 := by decide
/-- V-IMIX-6. -/
theorem test_imixc : resultOf (exec .imixc (inFlight .imixc 0x1000#16 0#16)) = some 0x9200#16 := by decide
theorem test_imixc_issue : issueByWord 0x7 (ready 0x1000#16 0#16) = some 0x00000705#32 := by decide
/-- V-ROT-6, the swap of the nibbles. -/
theorem test_rotsub : resultOf (exec .rotsub (inFlight .rotsub 0x0010#16 0#16)) = some 0x0094#16 := by decide
/-- RANGE at the first value that is no byte (R202). -/
theorem test_rotsub_range : issueByWord 0x8 (ready 0x0100#16 0#16) = some 0x0000083C#32 := by decide
/-- V-KEY-1, with the STATUS word it leaves, 0x00000906. -/
theorem test_keyexp : (nextOf (exec .keyexp { inFlight .keyexp 0#16 0#16 with kv := false, w := State.reset.w })).map
    (fun t => (t.w, t.result, statusWord t)) = some (keysA73B, 0#16, 0x00000906#32) := by decide
/-- V-KEY-4. -/
theorem test_keyexp_published : expandKey defaultSbox 0x2D55#16 = ⟨0x2D#8, 0x55#8, 0xBC#8, 0xE9#8, 0xA3#8, 0x4A#8⟩ := by decide
/-- V-ENC-1. -/
theorem test_enc : resultOf (exec .enc (inFlight .enc 0x6F6B#16 0#16)) = some 0x0738#16 := by decide
/-- NOKEY after reset (R202): LASTOP A, ERRCODE 2, ERR. -/
theorem test_enc_nokey : issueByWord 0xA State.reset = some 0x00000A28#32 := by decide
/-- V-DEC-1. -/
theorem test_dec : resultOf (exec .dec (inFlight .dec 0x0738#16 0#16)) = some 0x6F6B#16 := by decide
theorem test_dec_nokey : issueByWord 0xB State.reset = some 0x00000B28#32 := by decide

/-- BADOP (R202) for the lowest and the highest reserved opcode. -/
theorem test_badop : issueByWord 0x0 State.reset = some 0x00000018#32 ∧ issueByWord 0xF State.reset = some 0x00000F18#32 := by decide

/-- A CORE built with another table (R7): SUB complements each nibble, by hand from R125, and the table is still there after the step. -/
theorem test_other_table : (nextOf (act .complete { inFlight .sub 0x1234#16 0#16 with sbox := complementSbox })).map
    (fun t => (t.result, t.sbox)) = some (0xEDCB#16, complementSbox) := by decide

/-- The completion uses the snapshot, not the live registers (R38). -/
theorem test_snapshot : resultOf (exec .addk { inFlight .addk 0xAAAA#16 0x5555#16 with dinA := 0#16, dinB := 0#16 }) =
    some 0xFFFF#16 := by decide

/-! ## The bus -/

/-- An error response carries no data and changes nothing (R205): a misaligned read, a reserved offset, a read-only register, a wide value. -/
theorem test_bus_errors : [Request.read 0x01#6, .read 0x24#6, .write 0x24#6 0#32, .write 0x14#6 0#32, wr .key 0x00010000#32, wr .ctrl 0x00000010#32].map
    (fun r => nextOf (act (.host r) (ready 1#16 2#16)) == some { ready 1#16 2#16 with resp := some ⟨true, 0#32⟩ }) =
    [true, true, true, true, true, true] := by decide

/-- While BUSY = 1, the four writes are refused (R207) and reads are answered. -/
theorem test_busy_writes : [cmd .sub, wr .key 1#32, wr .dinA 1#32, wr .dinB 1#32, rd .status].map
    (fun r => respOf (act (.host r) (inFlight .enc 0x6F6B#16 0#16))) =
    [error, error, error, error, some ⟨false, 0x00000A05#32⟩] := by decide

/-- An accepted write of KEY clears KV and leaves W (R23, R243). -/
theorem test_key_write : (nextOf (act (.host (wr .key 0x0000FFFF#32)) (ready 0#16 0#16))).map (fun t => (t.key, t.kv, t.w)) =
    some (0xFFFF#16, false, keysA73B) := by decide

/-- Reset (R230) abandons a command in flight. -/
theorem test_reset : nextOf (act .reset (inFlight .dec 0x0738#16 1#16)) = some State.reset := by decide

/-- One cycle at the reference latencies: a unit command completes at the edge after its acceptance (R250). -/
theorem test_cycle : (nextOf (cycle referenceLatency ⟨false, true, false, 0x04#6, 0#32⟩ (inFlight .sub 0xC850#16 0#16))).map
    (fun t => (t.resp, t.result, t.busy)) = some (some ⟨false, 0x00000205#32⟩, 0xC619#16, false) := by decide

/-- Phase E1's work in the trace of V-ENC-1: 0xC850 becomes 0xF085. -/
theorem test_phase_e1 : vecToInt (phaseWork defaultSbox ⟨.enc, 0x6F6B#16, 0#16, 0xA73B#16⟩ keysA73B .e1 (intToVec 0xC850#16)) = 0xF085#16 := by decide

/-! ## Witnesses: for each obligation with hypotheses, states and operands that meet them, at the ends of their ranges -/

/-- The range conditions of GFMUL: the largest nibbles pass, the first value above fails in each operand. -/
theorem witness_GfmulIssuesChecksAndCompletes :
    (ready 0x000F#16 0x000F#16).pend = none ∧ (0x000F#16).extractLsb' 4 12 = 0#12 ∧
    (0x0010#16).extractLsb' 4 12 ≠ 0#12 ∧ (0xFFFF#16).extractLsb' 4 12 ≠ 0#12 ∧
    (inFlight .gfmul 0x000F#16 0x000F#16).pend = some ⟨.gfmul, 0x000F#16, 0x000F#16, 0xA73B#16⟩ ∧
    (inFlight .gfmul 0x000F#16 0x000F#16).pend.isSome := by decide

/-- The unit commands without a check: SUB, ISUB, SHR, ADDK, MIXC, IMIXC; and KEYEXP. -/
theorem witness_SubIssuesAndCompletes : (ready 0xFFFF#16 0#16).pend = none ∧
    (inFlight .sub 0xFFFF#16 0#16).pend = some ⟨.sub, 0xFFFF#16, 0#16, 0xA73B#16⟩ ∧
    defaultSbox.IsPermutation ∧ complementSbox.IsPermutation := by decide
theorem witness_IsubIssuesAndCompletes : (ready 0xFFFF#16 0#16).pend = none ∧
    (inFlight .isub 0xFFFF#16 0#16).pend = some ⟨.isub, 0xFFFF#16, 0#16, 0xA73B#16⟩ ∧
    defaultSbox.IsPermutation ∧ complementSbox.IsPermutation := by decide
theorem witness_ShrIssuesAndCompletes : (ready 0x1232#16 0#16).pend = none ∧
    (inFlight .shr 0x1232#16 0#16).pend = some ⟨.shr, 0x1232#16, 0#16, 0xA73B#16⟩ ∧
    (0x1232#16).extractLsb' 8 4 = (0x1232#16).extractLsb' 0 4 := by decide
theorem witness_AddkIssuesAndCompletes : (ready 0xFFFF#16 0xFFFF#16).pend = none ∧
    (inFlight .addk 0xFFFF#16 0xFFFF#16).pend = some ⟨.addk, 0xFFFF#16, 0xFFFF#16, 0xA73B#16⟩ := by decide
theorem witness_MixcIssuesAndCompletes : (ready 0xFFFF#16 0#16).pend = none ∧
    (inFlight .mixc 0xFFFF#16 0#16).pend = some ⟨.mixc, 0xFFFF#16, 0#16, 0xA73B#16⟩ ∧
    (0x1200#16).extractLsb' 8 8 = (0x12FF#16).extractLsb' 8 8 ∧ (0x0034#16).extractLsb' 0 8 = (0xFF34#16).extractLsb' 0 8 := by decide
theorem witness_ImixcIssuesAndCompletes : (ready 0xFFFF#16 0#16).pend = none ∧
    (inFlight .imixc 0xFFFF#16 0#16).pend = some ⟨.imixc, 0xFFFF#16, 0#16, 0xA73B#16⟩ := by decide
theorem witness_RotsubIssuesChecksAndCompletes : (ready 0x00FF#16 0#16).pend = none ∧ (0x00FF#16).extractLsb' 8 8 = 0#8 ∧
    (0x0100#16).extractLsb' 8 8 ≠ 0#8 ∧ (inFlight .rotsub 0x00FF#16 0#16).pend = some ⟨.rotsub, 0x00FF#16, 0#16, 0xA73B#16⟩ := by decide
theorem witness_KeyexpIssuesAndCompletes : State.reset.pend = none ∧
    (inFlight .keyexp 0#16 0#16).pend = some ⟨.keyexp, 0#16, 0#16, 0xA73B#16⟩ ∧
    (inFlight .keyexp 0#16 0#16).kv = true ∧ (inFlight .keyexp 0#16 0#16).w = expandKey (inFlight .keyexp 0#16 0#16).sbox 0xA73B#16 := by decide
theorem witness_EncIssuesChecksAndCompletes : (ready 0x6F6B#16 0#16).pend = none ∧ (ready 0x6F6B#16 0#16).kv = true ∧
    State.reset.pend = none ∧ State.reset.kv = false ∧
    (inFlight .enc 0x6F6B#16 0#16).pend = some ⟨.enc, 0x6F6B#16, 0#16, 0xA73B#16⟩ ∧
    defaultSbox.IsPermutation ∧ complementSbox.IsPermutation := by decide
theorem witness_DecIssuesChecksAndCompletes : (ready 0x0738#16 0#16).pend = none ∧ (ready 0x0738#16 0#16).kv = true ∧
    State.reset.pend = none ∧ State.reset.kv = false ∧
    (inFlight .dec 0x0738#16 0#16).pend = some ⟨.dec, 0x0738#16, 0#16, 0xA73B#16⟩ ∧
    defaultSbox.IsPermutation ∧ complementSbox.IsPermutation := by decide

/-- Each clause: an entry on the stream, a CTRL write of a command's word, the engine's turn by an entry and by an empty stream, with and without a command in flight, and a table word at both ends of the opcodes. -/
theorem witness_StepRunsTheDecodedCommand :
    (ready 0#16 0#16).withFetchWord 32 0x9 = { ready 0#16 0#16 with inputs := [.host (.write 0x00#6 0x00000009#32)] } ∧
    (ready 0#16 0#16).pend = none ∧ decodeCommand 0x00000009#32 = .command .keyexp ∧
    ({ inFlight .enc 0#16 0#16 with inputs := [.complete] } : State).inputs = [.complete] ∧
    (inFlight .enc 0#16 0#16).pend = some ⟨.enc, 0#16, 0#16, 0xA73B#16⟩ ∧ (inFlight .enc 0#16 0#16).inputs = [] ∧
    State.reset.inputs = [] ∧ State.reset.pend = none ∧
    decodeTableWord 32 0x1 = some .gfmul ∧ decodeTableWord 32 0xB = some .dec := by decide

/-- A stream that begins with a read, or with a write. -/
theorem witness_ReadFollowsThePseudocode : ({ State.reset with inputs := [.host (.read 0x20#6)] } : State).inputs = .host (.read 0x20#6) :: [] := by decide
theorem witness_WriteFollowsThePseudocode : ({ State.reset with inputs := [.host (.write 0x20#6 1#32)] } : State).inputs = .host (.write 0x20#6 1#32) :: [] := by decide

/-- A transaction answered with ERROR. -/
theorem witness_BusErrorChangesNothing :
    nextOf (step { State.reset with inputs := [.host (.read 0x24#6)] }) = some { State.reset with resp := some ⟨true, 0#32⟩ } := by decide

/-- Reads and writes on both sides of each cause: the last register and the first reserved offset, a misaligned one, each read-only register, the widest values that fit and the first that do not, and BUSY. -/
theorem witness_BusErrorHasExactlyItsCauses :
    [Request.read 0x20#6, .write 0x08#6 0x0000FFFF#32, .write 0x00#6 0x0000000F#32].map
      (fun r => (respOf (act (.host r) (ready 0#16 0#16))).map Response.err) = [some false, some false, some false] ∧
    [Request.read 0x21#6, .read 0x24#6, .read 0x3F#6, .write 0x03#6 0#32, .write 0x24#6 0#32, .write 0x04#6 0#32, .write 0x14#6 0#32,
      .write 0x18#6 0#32, .write 0x1C#6 0#32, .write 0x20#6 0#32, .write 0x00#6 0x00000010#32, .write 0x08#6 0x00010000#32,
      .write 0x0C#6 0x00010000#32, .write 0x10#6 0x80000000#32].map
      (fun r => (respOf (act (.host r) (ready 0#16 0#16))).map Response.err) = List.replicate 14 (some true) ∧
    [Request.write 0x00#6 1#32, .write 0x08#6 0#32, .write 0x0C#6 0#32, .write 0x10#6 0#32].map
      (fun r => (respOf (act (.host r) (inFlight .sub 0#16 0#16))).map Response.err) = List.replicate 4 (some true) := by decide

/-- A read and the three writes answer a next state. -/
theorem witness_ReadsAndOperandWritesAreIdempotent :
    [Request.read 0x20#6, .read 0x24#6, .write 0x08#6 0x0000FFFF#32, .write 0x0C#6 0x0000FFFF#32, .write 0x10#6 0x00010000#32].map
      (fun r => (nextOf (act (.host r) (ready 0#16 0#16))).isSome) = List.replicate 5 true := by decide

theorem witness_OperandRegistersReadAndWrite : (0x0000FFFF#32).extractLsb' 16 16 = 0#16 ∧ (ready 0#16 0#16).pend = none ∧
    (0x00010000#32).extractLsb' 16 16 ≠ 0#16 ∧ (inFlight .sub 0#16 0#16).pend.isSome = true ∧
    rejectionCause .enc (ready 0#16 0#16) = none ∧ Instr.rotsub ≠ .gfmul ∧ Instr.rotsub ≠ .addk ∧
    (inFlight .rotsub 0#16 0#16).pend = some ⟨.rotsub, 0#16, 0#16, 0xA73B#16⟩ := by decide

/-- RESULT changes by a completion and by reset. -/
theorem witness_ResultIsWrittenOnlyByCompletion :
    resultOf (act .complete (inFlight .sub 0#16 0#16)) = some 0x9999#16 ∧ (inFlight .sub 0#16 0#16).result = 0#16 ∧
    resultOf (act .reset { ready 0#16 0#16 with result := 1#16 }) = some 0#16 := by decide

/-- BUSY is set by a CTRL write, cleared by the completion and by reset, and kept by a read. -/
theorem witness_BusyIsSetByIssueAndClearedByCompletion :
    (nextOf (act (.host (.write 0x00#6 1#32)) (ready 0xF#16 0xF#16))).map State.busy = some true ∧
    (ready 0xF#16 0xF#16).busy = false ∧ (inFlight .sub 0#16 0#16).busy = true ∧
    (nextOf (act .complete (inFlight .sub 0#16 0#16))).map State.busy = some false ∧
    (nextOf (act .reset (inFlight .sub 0#16 0#16))).map State.busy = some false ∧
    (nextOf (act (.host (.read 0x04#6)) (inFlight .sub 0#16 0#16))).map State.busy = some true ∧
    decodeCommand 0x00000001#32 = .command .gfmul ∧ rejectionCause .gfmul (ready 0xF#16 0xF#16) = none ∧
    rejectionCause .gfmul (ready 0xF#16 0x10#16) ≠ none ∧ (ready 0xF#16 0x10#16).pend = none ∧
    decodeCommand 0x0000000C#32 = .reservedOp 0xC#4 ∧ (inFlight .sub 0#16 0#16).pend ≠ none := by decide

/-- KV changes by KEYEXP's completion, by a write of KEY and by reset; it is 0 with nothing in flight at reset. -/
theorem witness_KeyValidIsSetAndClearedByItsRule :
    (nextOf (act .complete { inFlight .keyexp 0#16 0#16 with kv := false })).map State.kv = some true ∧
    (nextOf (act (.host (.write 0x08#6 0x0000FFFF#32)) (ready 0#16 0#16))).map (fun t => (t.kv, t.resp)) = some (false, ok) ∧
    (nextOf (act .reset (ready 0#16 0#16))).map State.kv = some false ∧ (ready 0#16 0#16).kv = true ∧
    State.reset.pend = none ∧ State.reset.kv = false := by decide

/-- W changes by KEYEXP's completion and by reset. -/
theorem witness_RoundKeyStoreIsWrittenOnlyByKeyexp :
    (nextOf (act .complete { inFlight .keyexp 0#16 0#16 with w := State.reset.w })).map State.w = some keysA73B ∧
    (inFlight .keyexp 0#16 0#16).pend = some ⟨.keyexp, 0#16, 0#16, 0xA73B#16⟩ ∧
    (inFlight .enc 0#16 0#16).pend = some ⟨.enc, 0#16, 0#16, 0xA73B#16⟩ ∧
    (inFlight .dec 0#16 0#16).pend = some ⟨.dec, 0#16, 0#16, 0xA73B#16⟩ ∧
    keysA73B ≠ State.reset.w ∧ (nextOf (act .reset (ready 0#16 0#16))).map State.w = some State.reset.w := by decide

/-- Each row of R41's table happens: accepted writes of KEY, DIN_A and DIN_B, an accepted and a rejected command, an error, a completion. -/
theorem witness_StatusEffectsFollowTheTable :
    [Request.write 0x08#6 0x0000FFFF#32, .write 0x0C#6 0#32, .write 0x10#6 0#32, .write 0x00#6 0xA#32, .write 0x00#6 0xC#32, .write 0x00#6 0x10#32].map
      (fun r => respOf (act (.host r) (ready 0#16 0#16))) = [ok, ok, ok, ok, ok, error] ∧
    (nextOf (act .complete (inFlight .keyexp 0#16 0#16))).isSome ∧ (nextOf (act .reset (inFlight .keyexp 0#16 0#16))).isSome := by decide

theorem witness_ResetSetsEveryRegister : ({ inFlight .enc 1#16 1#16 with inputs := [.reset, .complete] } : State).inputs = .reset :: [.complete] := by decide

theorem witness_KeyChangeLeavesStaleRoundKeys : (ready 0#16 0#16).pend = none ∧
    respOf (act (.host (.write 0x08#6 0x0000FFFF#32)) (ready 0#16 0#16)) = ok := by decide

/-- Each operand register changes by its write. -/
theorem witness_OperandRegistersChangeOnlyByTheirWrites :
    (nextOf (act (.host (.write 0x08#6 1#32)) State.reset)).map State.key = some 1#16 ∧
    (nextOf (act (.host (.write 0x0C#6 1#32)) State.reset)).map State.dinA = some 1#16 ∧
    (nextOf (act (.host (.write 0x10#6 1#32)) State.reset)).map State.dinB = some 1#16 ∧
    Input.host (.write 0x08#6 1#32) ≠ .reset := by decide

/-- The invariant holds of reset, and of a state with ENC in flight; both step. -/
theorem witness_InvariantIsKeptByEveryStep : CoreInv State.reset ∧ CoreInv (inFlight .enc 0x6F6B#16 0#16) ∧
    (nextOf (step State.reset)).isSome ∧ (nextOf (step (inFlight .enc 0x6F6B#16 0#16))).isSome := by
  refine ⟨⟨by decide, ?_, ?_, ?_, by decide, by decide, by decide, by decide⟩,
    ⟨by decide, ?_, ?_, ?_, by decide, by decide, by decide, by decide⟩, by decide, by decide⟩
  · intro p h; cases h
  · intro p h; cases h
  · intro p h; cases h
  · intro p h; cases h; decide
  · intro p h; cases h; decide
  · intro p h; cases h; decide

/-- Every kind of action, a command and a run of cycles answer a next state. -/
theorem witness_SboxIsAConstant :
    [Input.host (.read 0x04#6), .host (.write 0x00#6 0x2#32), .complete, .reset].map
      (fun e => (nextOf (act e (ready 0#16 0#16))).isSome) = List.replicate 4 true ∧
    (nextOf (exec .sub (inFlight .sub 0#16 0#16))).isSome = true ∧
    (nextOf (cycles referenceLatency [⟨false, false, false, 0#6, 0#32⟩] (inFlight .sub 0#16 0#16))).isSome = true := by decide

theorem witness_InvariantHoldsAtReset : complementSbox.IsPermutation := by decide

theorem witness_CommandInFlightEnds : (inFlight .dec 0#16 0#16).pend ≠ none := by decide

/-- Two states with one command in flight and nothing else but W in common. -/
theorem witness_CompletionReadsOnlyPendAndW :
    (inFlight .enc 1#16 2#16).pend = some ⟨.enc, 1#16, 2#16, 0xA73B#16⟩ ∧
    ({ inFlight .enc 1#16 2#16 with key := 0#16, dinA := 0#16, dinB := 0#16, result := 7#16, orch := Orch.idle } : State).pend =
      some ⟨.enc, 1#16, 2#16, 0xA73B#16⟩ ∧ (inFlight .enc 1#16 2#16).sbox = defaultSbox ∧ Instr.enc ≠ .keyexp ∧
    (inFlight .keyexp 1#16 2#16).pend = some ⟨.keyexp, 1#16, 2#16, 0xA73B#16⟩ := by decide

theorem witness_ResultAndOrchestratorAreNotRead : Input.complete ≠ .host (.read 0x14#6) ∧ Input.host (.read 0x18#6) ≠ .host (.read 0x14#6) ∧
    (inFlight .sub 0#16 0#16).pend = some ⟨.sub, 0#16, 0#16, 0xA73B#16⟩ ∧ Instr.sub ≠ .keyexp := by decide

theorem witness_MultiplierLaws : (0xF#4) ≠ 0#4 ∧ gmul 0xF#4 0x8#4 = 1#4 := by decide

theorem witness_InverseTableInvertsEveryPermutation : defaultSbox.IsPermutation ∧ complementSbox.IsPermutation ∧ ¬ SBox.IsPermutation ⟨[]⟩ := by decide

theorem witness_EncryptionAndDecryptionAreInverse : defaultSbox.IsPermutation ∧ complementSbox.IsPermutation := by decide

/-- ENC of V-ENC-1 in flight, and DEC in flight on its result. -/
theorem witness_DecCompletionUndoesEncCompletion :
    (inFlight .enc 0x6F6B#16 0#16).pend = some ⟨.enc, 0x6F6B#16, 0#16, 0xA73B#16⟩ ∧
    (inFlight .dec 0x0738#16 0#16).w = (inFlight .enc 0x6F6B#16 0#16).w ∧
    (inFlight .dec 0x0738#16 0#16).sbox = (inFlight .enc 0x6F6B#16 0#16).sbox ∧ (inFlight .enc 0x6F6B#16 0#16).sbox.IsPermutation ∧
    resultOf (act .complete (inFlight .enc 0x6F6B#16 0#16)) = some 0x0738#16 ∧
    (inFlight .dec 0x0738#16 0#16).pend = some ⟨.dec, 0x0738#16, 0#16, 0xA73B#16⟩ := by decide

theorem witness_OpcodeRowsNeverOverlap : (⟨0xFFFFFFFF#32, 0x0000000B#32, .dec⟩ : OpcodeRow) ∈ opcodeTable ∧
    (⟨0xFFFFFFFF#32, 0x0000000B#32, .dec⟩ : OpcodeRow).selects 0x0000000B#32 = true := by decide

theorem witness_RequestVectorsRoundTrip : requestVectorWf 0x7FFFFFFFFF#39 = true ∧ requestVectorWf 0x3F00000000#39 = true := by decide

theorem witness_WindowOffsetIsTheLowAddressBits : baseWf 0x40000040 = true ∧ 0x40000040 ≤ 0x4000007F := by decide

/-- A state of the cycle level with ENC in flight, one cycle in, at the reference latencies. -/
def encSecondCycle : State :=
  { inFlight .enc 0x6F6B#16 0#16 with orch := { phase := .e1, svec := intToVec 0xC850#16, cycles := 1 } }

theorem witness_CycleInvariantIsKept : latencyWf referenceLatency = true ∧ CycleInv referenceLatency State.reset ∧
    CycleInv referenceLatency encSecondCycle ∧
    (nextOf (cycle referenceLatency ⟨false, false, false, 0#6, 0#32⟩ encSecondCycle)).isSome := by
  refine ⟨by decide, ⟨fun _ => by decide, ?_⟩, ⟨?_, ?_⟩, by decide⟩
  · intro p h; cases h
  · intro h; cases h
  · intro p h; cases h; decide

theorem witness_CyclesRefineTransactions : latencyWf referenceLatency = true ∧ CycleInv referenceLatency encSecondCycle ∧
    (⟨false, true, false, 0x04#6, 0#32⟩ : Ports).rst = false ∧ (⟨false, true, false, 0x04#6, 0#32⟩ : Ports).req = true :=
  ⟨by decide, witness_CycleInvariantIsKept.2.2.1, rfl, rfl⟩

/-- A rejected and an accepted command, and runs of L - 1 and of L cycles. -/
theorem witness_LatencyBoundsBusy : State.reset.pend = none ∧ rejectionCause .enc State.reset ≠ none ∧
    rejectionCause .sub State.reset = none ∧ (⟨false, true, true, 0x00#6, encode .sub⟩ : Ports).wdata = encode .sub ∧
    (inFlight .enc 0#16 0#16).pend = some ⟨.enc, 0#16, 0#16, 0xA73B#16⟩ ∧ (inFlight .enc 0#16 0#16).orch.cycles = 0 ∧
    (inFlight .enc 0#16 0#16).done = false ∧
    ((List.replicate 2 (⟨false, false, false, 0#6, 0#32⟩ : Ports)).length < latencyOf referenceLatency .enc) ∧
    ((List.replicate 3 (⟨false, false, false, 0#6, 0#32⟩ : Ports)).length = latencyOf referenceLatency .enc) := by decide

theorem witness_PhasesComputeTheCommand : firstPhase .gfmul = .u ∧ firstPhase .rotsub = .u ∧ firstPhase .enc = .ew := by decide

theorem witness_ResetCycleAnswersError : (⟨true, true, true, 0x08#6, 1#32⟩ : Ports).rst = true ∧
    (⟨true, true, true, 0x08#6, 1#32⟩ : Ports).req = true := by decide

end Sys2Proof.Tests
end

section
/-! O13 (00_scope.md R11, 20_memory.md R56, 60_exceptions.md R201, R205, R209): no step stops the machine. -/

namespace Sys2Proof.Machine

/-- Every step answers a next state: the move made by the entry taken off the stream, or by the engine once the stream has run out. -/
theorem step_moves (s : State) : ∃ t, step s = .next t ∧ Moves (takeInput s).1 (takeInput s).2 t :=
  act_moves (takeInput s).1 (takeInput s).2

/-- Settles O13: a step is a move, and a command is one stage of its life (issue, completion, or a bus error while another is in flight), each of which is a next state. -/
theorem everyStepAnswersANextState : Obligations.EveryStepAnswersANextState := by
  unfold Obligations.EveryStepAnswersANextState
  constructor
  · intro s
    obtain ⟨t, ht, -⟩ := step_moves s
    exact ⟨t, ht⟩
  · intro i s
    exact ⟨runCommand i (rejectionCause i s) (completion i) s, exec_eq_runCommand i s⟩

end Sys2Proof.Machine
end

section
/-! SUPPORT. The facts the statements of 10_state.md rest on: the window's map and the command words read backwards, each kind of transaction as one equation, and what an issue and a completion leave in each field. -/

namespace Sys2Proof.Machine

/-- A word that decodes to a command is that command's word (R74, R80). -/
theorem eq_encode_of_decodeCommand {v : BusWord} {i : Instr} (h : decodeCommand v = .command i) : v = encode i := by
  unfold decodeCommand at h
  split at h
  · split at h
    · next r hr =>
      obtain rfl : r.instr = i := by simpa using h
      have hsel : v &&& r.mask = r.pattern := by simpa [OpcodeRow.selects] using List.find?_some hr
      have hrow : ∀ r ∈ opcodeTable, r.mask = BitVec.allOnes 32 ∧ r.pattern = encode r.instr := by decide
      obtain ⟨hmask, hpat⟩ := hrow r (List.mem_of_find?_eq_some hr)
      rwa [hmask, hpat, BitVec.and_allOnes] at hsel
    · cases h
  · cases h

/-- The OP field of a word that decodes to a command is the command's opcode. -/
theorem opcode_of_decodeCommand {v : BusWord} {i : Instr} (h : decodeCommand v = .command i) :
    opcode i = v.extractLsb' 0 4 := by
  rw [eq_encode_of_decodeCommand h]
  rfl

/-- A reserved opcode is the word's OP field (R73). -/
theorem op_of_decodeCommand {v : BusWord} {op : BitVec 4} (h : decodeCommand v = .reservedOp op) :
    op = v.extractLsb' 0 4 := by
  unfold decodeCommand at h
  split at h
  · split at h
    · cases h
    · exact (Decoded.reservedOp.inj h).symm
  · cases h

/-- A register stands at its own offset. -/
@[simp] theorem regAt?_offset (r : Reg) : regAt? r.offset = some r := by
  cases r <;> rfl

/-- A register stands at no other offset (R22). -/
theorem eq_offset_of_regAt? {off : Offset} {r : Reg} (h : regAt? off = some r) : off = r.offset := by
  cases r <;> revert off <;> decide

/-- A read of a register answers its word and changes nothing (R52). -/
theorem act_read (r : Reg) (s : State) : act (.host (.read r.offset)) s = .next (okay (readWord r s) s) := by
  simp [act, transaction, hostRead]

/-- A write at CTRL's offset. -/
theorem act_write_ctrl (v : BusWord) (s : State) : act (.host (.write 0x00#6 v)) s = writeCtrl v s := rfl

/-- A write at KEY's offset. -/
theorem act_write_key (v : BusWord) (s : State) :
    act (.host (.write 0x08#6 v)) s = .next (writeOperand setKey v s) := rfl

/-- A write at DIN_A's offset. -/
theorem act_write_dinA (v : BusWord) (s : State) :
    act (.host (.write 0x0C#6 v)) s = .next (writeOperand setDinA v s) := rfl

/-- A write at DIN_B's offset. -/
theorem act_write_dinB (v : BusWord) (s : State) :
    act (.host (.write 0x10#6 v)) s = .next (writeOperand setDinB v s) := rfl

/-- A write of a read-only register is a bus error (R35, R37, R58). -/
theorem act_write_readOnly {r : Reg} (h : r ∈ [Reg.status, .result, .rk0, .rk1, .rk2]) (v : BusWord) (s : State) :
    act (.host (.write r.offset v)) s = .next (busError s) := by
  fin_cases h <;> rfl

/-- A value of 16 bits, with nothing in flight, is written. -/
theorem writeOperand_accepts (set : Block → State → State) {v : BusWord} {s : State} (hv : v.extractLsb' 16 16 = 0#16)
    (hp : s.pend = none) : writeOperand set v s = okay 0#32 (set (writtenBlock v) s) := by
  simp [writeOperand, tooWide, State.busy, hv, hp]

/-- A wider value, or any value while BUSY = 1, is refused (R206, R207). -/
theorem writeOperand_refuses (set : Block → State → State) {v : BusWord} {s : State}
    (h : v.extractLsb' 16 16 ≠ 0#16 ∨ s.pend.isSome = true) : writeOperand set v s = busError s := by
  rcases h with hv | hb
  · simp [writeOperand, tooWide, hv]
  · simp [writeOperand, State.busy, hb]

/-- A command's word, with nothing in flight, issues the command (R55). -/
theorem writeCtrl_command {v : BusWord} {i : Instr} {s : State} (hp : s.pend = none)
    (hd : decodeCommand v = .command i) : writeCtrl v s = .next (issueCommand i (rejectionCause i s) s) := by
  simp [writeCtrl, hd, State.busy, hp, exec_idle hp]

/-- A reserved opcode, with nothing in flight, is rejected (R55). -/
theorem writeCtrl_reservedOp {v : BusWord} {op : BitVec 4} {s : State} (hp : s.pend = none)
    (hd : decodeCommand v = .reservedOp op) : writeCtrl v s = .next (rejectCommand op .badOp s) := by
  simp [writeCtrl, hd, State.busy, hp]

/-- A word with a reserved bit set is refused (R73). -/
theorem writeCtrl_illegalWord {v : BusWord} (hd : decodeCommand v = .illegalWord) (s : State) :
    writeCtrl v s = .next (busError s) := by
  simp [writeCtrl, hd]

/-- Every CTRL write is refused while a command is in flight (R207). -/
theorem writeCtrl_inFlight (v : BusWord) {s : State} {p : Pending} (hp : s.pend = some p) :
    writeCtrl v s = .next (busError s) := by
  cases hd : decodeCommand v <;> simp [writeCtrl, hd, State.busy, hp]

/-- The engine's turn with a command in flight is its completion. -/
theorem act_complete {s : State} {p : Pending} (h : s.pend = some p) :
    act .complete s = .next (completion p.op p s) :=
  completeStep_inFlight h

/-- The state an action answers is one of its moves. -/
theorem moves_of_act {e : Input} {s t : State} (h : act e s = .next t) : Moves e s t := by
  obtain ⟨u, hu, m⟩ := act_moves e s
  obtain rfl : u = t := by simpa [hu] using h
  exact m

/-- The rejection condition reads DIN_A, DIN_B and KV alone (R55). -/
theorem rejectionCause_congr (i : Instr) {s t : State} (ha : t.dinA = s.dinA) (hb : t.dinB = s.dinB) (hk : t.kv = s.kv) :
    rejectionCause i t = rejectionCause i s := by
  cases i <;> simp [rejectionCause, nibbleRangeCause, byteRangeCause, noKeyCause, notNibbles, notByte, ha, hb, hk]

/-! ### What an issue leaves, accepted or rejected -/

section Issue
variable (i : Instr) (c : Option CmdErrorCause) (s : State)

@[simp] theorem issueCommand_key : (issueCommand i c s).key = s.key := by cases c <;> rfl
@[simp] theorem issueCommand_dinA : (issueCommand i c s).dinA = s.dinA := by cases c <;> rfl
@[simp] theorem issueCommand_dinB : (issueCommand i c s).dinB = s.dinB := by cases c <;> rfl
@[simp] theorem issueCommand_result : (issueCommand i c s).result = s.result := by cases c <;> rfl
@[simp] theorem issueCommand_done : (issueCommand i c s).done = false := by cases c <;> rfl
@[simp] theorem issueCommand_kv : (issueCommand i c s).kv = s.kv := by cases c <;> rfl
@[simp] theorem issueCommand_lastOp : (issueCommand i c s).lastOp = opcode i := by cases c <;> rfl
@[simp] theorem issueCommand_w : (issueCommand i c s).w = s.w := by cases c <;> rfl
@[simp] theorem issueCommand_sbox : (issueCommand i c s).sbox = s.sbox := by cases c <;> rfl

end Issue

/-! ### What a completion leaves -/

section Completion
variable (i : Instr) (p : Pending) (s : State)

@[simp] theorem completion_pend : (completion i p s).pend = none := by cases i <;> rfl
@[simp] theorem completion_done : (completion i p s).done = true := by cases i <;> rfl
@[simp] theorem completion_orch : (completion i p s).orch = Orch.idle := by cases i <;> rfl
@[simp] theorem completion_key : (completion i p s).key = s.key := by cases i <;> rfl
@[simp] theorem completion_dinA : (completion i p s).dinA = s.dinA := by cases i <;> rfl
@[simp] theorem completion_dinB : (completion i p s).dinB = s.dinB := by cases i <;> rfl
@[simp] theorem completion_err : (completion i p s).err = s.err := by cases i <;> rfl
@[simp] theorem completion_errCode : (completion i p s).errCode = s.errCode := by cases i <;> rfl
@[simp] theorem completion_lastOp : (completion i p s).lastOp = s.lastOp := by cases i <;> rfl
@[simp] theorem completion_sbox : (completion i p s).sbox = s.sbox := by cases i <;> rfl

/-- KEYEXP's completion sets KV, and no other writes it (R31). -/
@[simp] theorem completion_kv : (completion i p s).kv = if i = .keyexp then true else s.kv := by cases i <;> rfl

/-- KEYEXP's completion writes the round-key store, and no other does (R36). -/
@[simp] theorem completion_w : (completion i p s).w = if i = .keyexp then expandKey s.sbox p.k else s.w := by
  cases i <;> rfl

/-- KEYEXP's completion leaves RESULT (R26). -/
@[simp] theorem completion_keyexp_result : (completion .keyexp p s).result = s.result := rfl

end Completion

end Sys2Proof.Machine
end

section
/-! O31 (10_state.md R28, R30 to R34, R38, 41_substitution.md R121, 60_exceptions.md R202): every step keeps the invariant of the transaction level. -/

namespace Sys2Proof.Machine

/-- The invariant of a state with nothing in flight: the clauses about PEND ask nothing. -/
theorem CoreInv.of_idle {s : State} (hp : s.pend = none) (hk : s.kv = true → s.w = expandKey s.sbox s.key)
    (hn : s.err = true ↔ s.errCode ≠ errorCodeNone) (hl : s.errCode.toNat ≤ 3) (hd : ¬(s.done = true ∧ s.err = true))
    (hT : s.sbox.IsPermutation) : CoreInv s where
  keysValid := hk
  pendLive := by simp [hp]
  pendFlags := by simp [hp]
  pendLegal := by simp [hp]
  errNamed := hn
  errCodeLegal := hl
  doneNotErr := hd
  tableIsPermutation := hT

/-- The response is no part of the invariant. -/
theorem CoreInv.with_resp {s : State} (h : CoreInv s) (r : Option Response) : CoreInv { s with resp := r } where
  __ := h

/-- The host's stream is no part of the invariant. -/
theorem CoreInv.with_inputs {s : State} (h : CoreInv s) (es : List Input) : CoreInv { s with inputs := es } where
  __ := h

/-- Taking an entry off the stream keeps the invariant. -/
theorem CoreInv.after_takeInput {s : State} (h : CoreInv s) : CoreInv (takeInput s).2 := by
  unfold takeInput
  split
  · exact h
  · exact h.with_inputs _

/-- A write of KEY keeps the invariant: it clears KV, so the old round keys are not taken for the new key's (R31). -/
theorem CoreInv.after_setKey {s : State} (h : CoreInv s) (hp : s.pend = none) (x : Block) :
    CoreInv (okay 0#32 (setKey x s)) :=
  .of_idle hp (by simp) h.errNamed h.errCodeLegal h.doneNotErr h.tableIsPermutation

/-- A write of DIN_A with nothing in flight keeps the invariant. -/
theorem CoreInv.after_setDinA {s : State} (h : CoreInv s) (hp : s.pend = none) (x : Block) :
    CoreInv (okay 0#32 (setDinA x s)) :=
  .of_idle hp h.keysValid h.errNamed h.errCodeLegal h.doneNotErr h.tableIsPermutation

/-- A write of DIN_B with nothing in flight keeps the invariant. -/
theorem CoreInv.after_setDinB {s : State} (h : CoreInv s) (hp : s.pend = none) (x : Block) :
    CoreInv (okay 0#32 (setDinB x s)) :=
  .of_idle hp h.keysValid h.errNamed h.errCodeLegal h.doneNotErr h.tableIsPermutation

/-- A cause's code is not NONE (R33). -/
theorem errorCode_ne_none (c : CmdErrorCause) : errorCode c ≠ errorCodeNone := by
  cases c <;> decide

/-- A cause's code is not a reserved one (R33). -/
theorem errorCode_le_three (c : CmdErrorCause) : (errorCode c).toNat ≤ 3 := by
  cases c <;> decide

/-- A rejection keeps the invariant: it sets ERR with a named code and clears DONE (R201). -/
theorem CoreInv.after_rejectCommand {s : State} (h : CoreInv s) (hp : s.pend = none) (op : BitVec 4) (c : CmdErrorCause) :
    CoreInv (rejectCommand op c s) :=
  .of_idle hp h.keysValid (by simp [errorCode_ne_none]) (errorCode_le_three c) (by simp) h.tableIsPermutation

/-- An acceptance keeps the invariant: PEND is the live registers, and the condition that let the command in still holds (R55). -/
theorem CoreInv.after_acceptCommand {s : State} (h : CoreInv s) {i : Instr} (hi : rejectionCause i s = none) :
    CoreInv (acceptCommand i s) where
  keysValid := h.keysValid
  pendLive p hp := by
    obtain rfl : snapshot i s = p := by simpa using hp
    exact ⟨rfl, rfl⟩
  pendFlags _ _ := ⟨rfl, rfl⟩
  pendLegal p hp := by
    obtain rfl : snapshot i s = p := by simpa using hp
    exact (rejectionCause_congr i rfl rfl rfl).trans hi
  errNamed := by simp
  errCodeLegal := Nat.zero_le 3
  doneNotErr := by simp
  tableIsPermutation := h.tableIsPermutation

/-- An issue keeps the invariant, whether the command is rejected or accepted. -/
theorem CoreInv.after_issueCommand {s : State} (h : CoreInv s) (hp : s.pend = none) (i : Instr) :
    CoreInv (issueCommand i (rejectionCause i s) s) := by
  cases hc : rejectionCause i s with
  | none => exact h.after_acceptCommand hc
  | some c => exact h.after_rejectCommand hp (opcode i) c

/-- The completion keeps the invariant: KEYEXP expands the snapshot of KEY, which is KEY itself, and ERR is 0 when DONE is set (R38, R166). -/
theorem CoreInv.after_completion {s : State} (h : CoreInv s) {p : Pending} (hp : s.pend = some p) :
    CoreInv (completion p.op p s) := by
  obtain ⟨hlive, -⟩ := h.pendLive p hp
  obtain ⟨-, herr⟩ := h.pendFlags p hp
  have hkey : p.k = s.key := by rw [hlive, snapshot_k]
  refine .of_idle (completion_pend ..) ?_ ?_ ?_ ?_ ?_
  · by_cases hop : p.op = .keyexp
    · simp [hop, hkey]
    · simpa [hop] using h.keysValid
  · simpa using h.errNamed
  · simpa using h.errCodeLegal
  · simp [herr]
  · simpa using h.tableIsPermutation

/-- Reset keeps the invariant: every flag is 0, and the table is as it was (R230). -/
theorem CoreInv.after_resetStep {s : State} (h : CoreInv s) : CoreInv (resetStep s) :=
  .of_idle rfl (by simp [State.reset]) (by simp [State.reset, errorCodeNone]) (Nat.zero_le 3) (by simp [State.reset])
    h.tableIsPermutation

/-- Every move keeps the invariant. -/
theorem Moves.coreInv {e : Input} {s t : State} (m : Moves e s t) (h : CoreInv s) : CoreInv t := by
  cases m with
  | read off r => exact h.with_resp r
  | refused off v => exact h.with_resp _
  | key off v he hr hw hp => exact h.after_setKey hp _
  | dinA off v he hr hw hp => exact h.after_setDinA hp _
  | dinB off v he hr hw hp => exact h.after_setDinB hp _
  | badOp off v op he hr hd hp => exact h.after_rejectCommand hp op .badOp
  | issue off v i he hr hd hp => exact h.after_issueCommand hp i
  | idle => exact h
  | complete p he hp => exact h.after_completion hp
  | reset => exact h.after_resetStep

/-- Settles O31: a step is a move from the state with its entry taken off the stream, and every move keeps the invariant. -/
theorem invariantIsKeptByEveryStep : Obligations.InvariantIsKeptByEveryStep := by
  unfold Obligations.InvariantIsKeptByEveryStep
  intro s t h hs
  exact (moves_of_act hs).coreInv h.after_takeInput

end Sys2Proof.Machine
end

section
/-! O19 to O22, O26 (10_state.md R22 to R28, R35, R37): the registers of the window, what each reads and which writes it takes. -/

namespace Sys2Proof.Machine

open PseudoCode

/-- The snapshot of DIN_B is read by GFMUL's and ADDK's completions alone, and the completion empties PEND, so another value in it leaves no trace (R25). -/
theorem completion_withDinB {i : Instr} (hg : i ≠ .gfmul) (ha : i ≠ .addk) (p : Pending) (s : State) (x : Block) :
    completion i { p with b := x } { s with pend := some { p with b := x } } = completion i p s := by
  cases i with
  | gfmul => exact absurd rfl hg
  | addk => exact absurd rfl ha
  | _ => rfl

/-- DIN_B is in the rejection condition of GFMUL alone (R55). -/
theorem rejectionCause_withDinB {i : Instr} (hg : i ≠ .gfmul) (s : State) (x : Block) :
    rejectionCause i { s with dinB := x } = rejectionCause i s := by
  cases i with
  | gfmul => exact absurd rfl hg
  | _ => rfl

/-- Settles O19: the issue takes the snapshot of the three registers; each write is `writeOperand` at the register's offset, and each read is `act_read`. -/
theorem operandRegistersReadAndWrite : Obligations.OperandRegistersReadAndWrite := by
  unfold Obligations.OperandRegistersReadAndWrite
  refine ⟨fun s i hp hi => ?_, fun s i x hg ha => ⟨rejectionCause_withDinB hg s x, ?_⟩, fun s v hv hp => ?_,
    fun s v h => ?_, fun s => ⟨act_read .key s, act_read .dinA s, act_read .dinB s⟩, rfl, rfl, rfl⟩
  · exact ⟨acceptCommand i s, by rw [exec_idle hp, hi, issueCommand_none], rfl⟩
  · rintro p hp rfl
    refine ⟨completion p.op p s, act_complete hp, ?_⟩
    rw [act_complete rfl, completion_withDinB hg ha]
  · rw [act_write_key, act_write_dinA, act_write_dinB]
    simp only [writeOperand_accepts _ hv hp]
    exact ⟨rfl, rfl, rfl⟩
  · rw [act_write_key, act_write_dinA, act_write_dinB]
    simp only [writeOperand_refuses _ h]
    exact ⟨rfl, rfl, rfl⟩

/-- RESULT is written by reset, and by the completion of a command other than KEYEXP (R26, R230). -/
theorem Moves.result_changed {e : Input} {s t : State} (m : Moves e s t) (h : t.result ≠ s.result) :
    (e = .reset ∧ t = resetStep s) ∨
    (e = .complete ∧ ∃ p, s.pend = some p ∧ p.op ≠ .keyexp ∧ t = completion p.op p s) := by
  cases m with
  | reset he => exact .inl ⟨he, rfl⟩
  | complete p he hp => exact .inr ⟨he, p, hp, fun hop => h (by simp [hop]), rfl⟩
  | _ => simp at h

/-- Settles O20: only a reset and a completion other than KEYEXP's are moves that change RESULT, and its register is read-only. -/
theorem resultIsWrittenOnlyByCompletion : Obligations.ResultIsWrittenOnlyByCompletion := by
  unfold Obligations.ResultIsWrittenOnlyByCompletion
  refine ⟨fun s t e hact hne => ?_, act_read .result, fun v s => act_write_readOnly (r := .result) (by simp) s v, rfl⟩
  rcases (moves_of_act hact).result_changed hne with ⟨he, rfl⟩ | ⟨he, p, hp, hop, rfl⟩
  · exact .inl ⟨he, rfl⟩
  · exact .inr ⟨he, p, hp, hop, completion_pend .., completion_done ..⟩

/-- The bits of the STATUS word, from BUSY at bit 0 up to the zeros above LASTOP (R28). -/
theorem statusWord_bit (s : State) {i : Nat} (hi : i < 32) : (statusWord s).getLsbD i =
    if i < 1 then (BitVec.ofBool s.busy).getLsbD i
    else if i - 1 < 1 then (BitVec.ofBool s.done).getLsbD (i - 1)
    else if i - 1 - 1 < 1 then (BitVec.ofBool s.kv).getLsbD (i - 1 - 1)
    else if i - 1 - 1 - 1 < 1 then (BitVec.ofBool s.err).getLsbD (i - 1 - 1 - 1)
    else if i - 1 - 1 - 1 - 1 < 4 then s.errCode.getLsbD (i - 1 - 1 - 1 - 1)
    else s.lastOp.getLsbD (i - 1 - 1 - 1 - 1 - 4) := by
  simp only [statusWord, BitVec.getLsbD_setWidth, BitVec.getLsbD_append, hi, decide_true, Bool.true_and]

/-- ERRCODE is bits [7:4] of the STATUS word (R28). -/
theorem statusWord_errCode (s : State) : (statusWord s).extractLsb' 4 4 = s.errCode := by
  refine BitVec.eq_of_getLsbD_eq fun i hi => ?_
  rw [BitVec.getLsbD_extractLsb', statusWord_bit s (by omega)]
  interval_cases i <;> rfl

/-- LASTOP is bits [11:8] of the STATUS word (R28). -/
theorem statusWord_lastOp (s : State) : (statusWord s).extractLsb' 8 4 = s.lastOp := by
  refine BitVec.eq_of_getLsbD_eq fun i hi => ?_
  rw [BitVec.getLsbD_extractLsb', statusWord_bit s (by omega)]
  interval_cases i <;> rfl

/-- The bits of the STATUS word above LASTOP are reserved and read 0 (R28). -/
theorem statusWord_reserved (s : State) : (statusWord s).extractLsb' 12 20 = 0#20 := by
  refine BitVec.eq_of_getLsbD_eq fun i hi => ?_
  simp only [statusWord, BitVec.getLsbD_extractLsb', BitVec.getLsbD_setWidth]
  rw [BitVec.getLsbD_of_ge _ (12 + i) (by omega)]
  simp

/-- Settles O22: the word is the STATUS word, taken apart bit by bit, and the register is read-only. -/
theorem statusWordHoldsItsFields : Obligations.StatusWordHoldsItsFields := by
  unfold Obligations.StatusWordHoldsItsFields
  refine ⟨fun s => ⟨statusWord s, act_read .status s, ?_, ?_, ?_, ?_, statusWord_errCode s, statusWord_lastOp s,
    statusWord_reserved s⟩, fun s v => act_write_readOnly (r := .status) (by simp) v s⟩
  all_goals
    rw [statusWord_bit s (by omega)]
    simp [State.busy]

/-- Settles O21: CTRL's word is 0 in every state. -/
theorem ctrlReadsZero : Obligations.CtrlReadsZero := by
  unfold Obligations.CtrlReadsZero
  exact act_read .ctrl

/-- Settles O26: each view's word is its pair of bytes of W, whatever KV is, and the views are read-only registers. -/
theorem roundKeyViewsAreReadOnly : Obligations.RoundKeyViewsAreReadOnly := by
  unfold Obligations.RoundKeyViewsAreReadOnly
  refine ⟨fun s => ⟨act_read .rk0 s, act_read .rk1 s, act_read .rk2 s⟩, fun s v => ⟨?_, ?_, ?_⟩, by decide⟩
  · exact act_write_readOnly (r := .rk0) (by simp) v s
  · exact act_write_readOnly (r := .rk1) (by simp) v s
  · exact act_write_readOnly (r := .rk2) (by simp) v s

end Sys2Proof.Machine
end

section
/-! O23, O24, O25, O27, O30 (10_state.md R23 to R25, R29 to R34, R36, R41): which steps write BUSY, KV, the round-key store, the STATUS fields and the operand registers. -/

namespace Sys2Proof.Machine

open PseudoCode

/-- While a command is in flight, a step that leaves it in flight changes the response alone: a read, or a refused write (R207). -/
theorem Moves.stays_inFlight {e : Input} {s t : State} (m : Moves e s t) (hs : s.pend ≠ none) (ht : t.pend ≠ none) :
    ∃ r, t = { s with resp := r } := by
  cases m with
  | read off r => exact ⟨_, rfl⟩
  | refused => exact ⟨_, rfl⟩
  | complete p => exact absurd (completion_pend ..) ht
  | reset => exact absurd rfl ht
  | _ => contradiction

/-- A command comes into flight by the acceptance of a CTRL write, and by nothing else (R29, R55). -/
theorem Moves.starts {e : Input} {s t : State} (m : Moves e s t) (hs : s.pend = none) (ht : t.pend ≠ none) :
    ∃ v i, e = .host (.write 0x00#6 v) ∧ decodeCommand v = .command i ∧ rejectionCause i s = none ∧
      t = acceptCommand i s := by
  cases m with
  | issue off v i he hr hd hp =>
    obtain rfl := eq_offset_of_regAt? hr
    cases hc : rejectionCause i s with
    | none => exact ⟨v, i, he, hd, hc, rfl⟩
    | some c => simp [hc, hs] at ht
  | complete p => exact absurd (completion_pend ..) ht
  | reset => exact absurd rfl ht
  | _ => exact absurd hs ht

/-- A command leaves flight by its completion or by reset (R29). -/
theorem Moves.ends {e : Input} {s t : State} (m : Moves e s t) (hs : s.pend ≠ none) (ht : t.pend = none) :
    e = .complete ∨ e = .reset := by
  cases m with
  | complete p he => exact .inl he
  | reset he => exact .inr he
  | read => exact absurd ht hs
  | refused => exact absurd ht hs
  | _ => contradiction

/-- An acceptance is the one the spec's `Issue` gives, with the orchestrator started (R55). -/
theorem acceptCommand_eq_accepted {v : BusWord} {i : Instr} (hd : decodeCommand v = .command i) (s : State) :
    acceptCommand i s = { accepted i (v.extractLsb' 0 4) s with orch := orchStart (snapshot i s) } := by
  rw [← opcode_of_decodeCommand hd]
  rfl

/-- Settles O23: a CTRL write with nothing in flight issues; the completion and reset empty PEND; and the moves that start, end and leave a command in flight are the ones named. -/
theorem busyIsSetByIssueAndClearedByCompletion : Obligations.BusyIsSetByIssueAndClearedByCompletion := by
  unfold Obligations.BusyIsSetByIssueAndClearedByCompletion
  refine ⟨fun s v i hp hd hc => ⟨orchStart (snapshot i s), ?_⟩, fun s v i hp hd hc => ?_,
    fun s v op hp hd => ⟨rejectCommand op .badOp s, ?_, hp⟩, fun s hp => ⟨?_, resetStep s, rfl, rfl⟩,
    fun s t e hact hs ht => ?_, fun s t e hact => (moves_of_act hact).ends, fun s t e hact hs ht => ?_⟩
  · rw [act_write_ctrl, writeCtrl_command hp hd, hc, issueCommand_none, acceptCommand_eq_accepted hd]
  · obtain ⟨c, hc⟩ := Option.ne_none_iff_exists'.mp hc
    exact ⟨rejectCommand (opcode i) c s, by rw [act_write_ctrl, writeCtrl_command hp hd, hc, issueCommand_some], hp⟩
  · rw [act_write_ctrl, writeCtrl_reservedOp hp hd]
  · obtain ⟨p, hp⟩ := Option.ne_none_iff_exists'.mp hp
    exact ⟨completion p.op p s, act_complete hp, completion_pend ..⟩
  · obtain ⟨v, i, he, hd, -, rfl⟩ := (moves_of_act hact).starts hs ht
    exact ⟨v, i, he, hd, _, acceptCommand_eq_accepted hd s⟩
  · obtain ⟨r, rfl⟩ := (moves_of_act hact).stays_inFlight hs ht
    exact ⟨rfl, rfl, rfl, rfl, rfl⟩

/-- A write answered OKAY is no refused one. -/
theorem busError_resp_ne_ok (s : State) : (busError s).resp ≠ ok := by
  simp [ok]

/-- A KEY write answered OKAY was accepted. -/
theorem eq_setKey_of_okay {s t : State} {v : BusWord} (h : act (.host (.write 0x08#6 v)) s = .next t) (ht : t.resp = ok) :
    s.pend = none ∧ t = okay 0#32 (setKey (writtenBlock v) s) := by
  obtain rfl : writeOperand setKey v s = t := by simpa [act_write_key] using h
  rcases writeOperand_cases setKey v s with hw | ⟨-, hp, hw⟩
  · exact absurd (hw ▸ ht) (busError_resp_ne_ok s)
  · exact ⟨hp, hw⟩

/-- KV changes by KEYEXP's completion, by a write of KEY, and by reset (R31). -/
theorem Moves.kv_changed {e : Input} {s t : State} (m : Moves e s t) (h : t.kv ≠ s.kv) :
    (e = .complete ∧ ∃ p, s.pend = some p ∧ p.op = .keyexp) ∨ (∃ v, e = .host (.write 0x08#6 v)) ∨ e = .reset := by
  cases m with
  | key off v he hr =>
    obtain rfl := eq_offset_of_regAt? hr
    exact .inr (.inl ⟨v, he⟩)
  | complete p he hp => exact .inl ⟨he, p, hp, by_contra fun hop => h (by simp [hop])⟩
  | reset he => exact .inr (.inr he)
  | _ => simp at h

/-- ENC and DEC are rejected with NOKEY while KV = 0 (R31, R55). -/
theorem exec_noKey {i : Instr} (hi : i = .enc ∨ i = .dec) {s : State} (hp : s.pend = none) (hk : s.kv = false) :
    exec i s = .next (rejected (opcode i) 2#4 s) := by
  have hc : rejectionCause i s = some .noKey := by rcases hi with rfl | rfl <;> simp [rejectionCause, noKeyCause, hk]
  rw [exec_idle hp, hc]
  rfl

/-- Settles O24: KEYEXP's completion sets KV, an accepted write of KEY and reset clear it, and no other move changes it. -/
theorem keyValidIsSetAndClearedByItsRule : Obligations.KeyValidIsSetAndClearedByItsRule := by
  unfold Obligations.KeyValidIsSetAndClearedByItsRule
  refine ⟨fun s t p hp hop hact => ?_, fun s t v hact ht => ?_, fun s t hact => ?_,
    fun s t e hact => (moves_of_act hact).kv_changed, fun s hp hk => ⟨exec_noKey (.inl rfl) hp hk, exec_noKey (.inr rfl) hp hk⟩⟩
  · obtain rfl : completion p.op p s = t := by simpa [act_complete hp] using hact
    simp [hop]
  · obtain ⟨-, rfl⟩ := eq_setKey_of_okay hact ht
    rfl
  · obtain rfl : resetStep s = t := by simpa [act] using hact
    rfl

/-- The round-key store is written by reset and by KEYEXP's completion (R36). -/
theorem Moves.w_changed {e : Input} {s t : State} (m : Moves e s t) (h : t.w ≠ s.w) :
    (e = .reset ∧ t = resetStep s) ∨
    (e = .complete ∧ ∃ p, s.pend = some p ∧ p.op = .keyexp ∧ t = completion p.op p s) := by
  cases m with
  | reset he => exact .inl ⟨he, rfl⟩
  | complete p he hp => exact .inr ⟨he, p, hp, by_contra fun hop => h (by simp [hop]), rfl⟩
  | _ => simp at h

/-- Settles O25: the completions compute as `completion` says, and no move but KEYEXP's completion and reset writes W. -/
theorem roundKeyStoreIsWrittenOnlyByKeyexp : Obligations.RoundKeyStoreIsWrittenOnlyByKeyexp := by
  unfold Obligations.RoundKeyStoreIsWrittenOnlyByKeyexp
  refine ⟨fun s p hp => ?_, fun s t e hact hne => ?_, rfl⟩
  · rw [act_complete hp]
    refine ⟨fun hop => ⟨_, rfl, ?_⟩, fun hop => ⟨_, rfl, ?_⟩, fun hop => ⟨_, rfl, ?_⟩⟩ <;> rw [hop] <;> rfl
  · rcases (moves_of_act hact).w_changed hne with ⟨he, rfl⟩ | ⟨he, p, hp, hop, rfl⟩
    · exact .inl ⟨he, rfl⟩
    · exact .inr ⟨he, p, hp, hop, by simp [hop], by simp [hop]⟩

/-- A write of a register that is in no STATUS field leaves the STATUS fields, accepted or refused. -/
theorem status_writeOperand {set : Block → State → State} (hset : ∀ x s, status (set x s) = status s) (v : BusWord)
    (s : State) : status (writeOperand set v s) = status s := by
  rcases writeOperand_cases set v s with hw | ⟨-, -, hw⟩ <;> rw [hw]
  · rfl
  · exact hset _ s

/-- A DIN_A or DIN_B write leaves the STATUS fields. -/
theorem status_of_dinWrite {s t : State} {off : Offset} {v : BusWord} (ho : off = 0x0C#6 ∨ off = 0x10#6)
    (h : act (.host (.write off v)) s = .next t) : status t = status s := by
  rcases ho with rfl | rfl
  · obtain rfl : writeOperand setDinA v s = t := by simpa [act_write_dinA] using h
    exact status_writeOperand (set := setDinA) (fun _ _ => rfl) v s
  · obtain rfl : writeOperand setDinB v s = t := by simpa [act_write_dinB] using h
    exact status_writeOperand (set := setDinB) (fun _ _ => rfl) v s

/-- A transaction answered with ERROR leaves the STATUS fields (R205). -/
theorem Moves.status_of_error {s t : State} {off : Offset} {v : BusWord} (m : Moves (.host (.write off v)) s t)
    (ht : t.resp = error) : status t = status s := by
  cases m with
  | refused => rfl
  | issue off v i => cases hc : rejectionCause i s <;> simp [hc, error] at ht
  | _ => simp_all [error]

/-- The STATUS fields after a rejection (R201). -/
theorem status_rejectCommand (op : BitVec 4) (c : CmdErrorCause) {s : State} (hp : s.pend = none) :
    status (rejectCommand op c s) = (false, false, s.kv, true, errorCode c, op) := by
  simp [status, hp]

/-- The STATUS fields after an acceptance (R55). -/
theorem status_acceptCommand (i : Instr) (s : State) :
    status (acceptCommand i s) = (true, false, s.kv, false, 0#4, opcode i) := rfl

/-- The STATUS fields after a completion (R56). -/
theorem status_completion (i : Instr) (p : Pending) (s : State) :
    status (completion i p s) = (false, true, if i = .keyexp then true else s.kv, s.err, s.errCode, s.lastOp) := by
  simp [status]

/-- The STATUS fields after a CTRL write answered OKAY: those of an acceptance, or those of a rejection with its code. -/
theorem status_of_ctrlWrite {s t : State} {v : BusWord} (h : writeCtrl v s = .next t) (ht : t.resp = ok) :
    status t = (true, false, s.kv, false, 0#4, v.extractLsb' 0 4) ∨
    (∃ code, code ≠ 0#4 ∧ status t = (false, false, s.kv, true, code, v.extractLsb' 0 4)) := by
  rcases writeCtrl_cases v s with hw | ⟨op, hp, hd, hw⟩ | ⟨i, hp, hd, hw⟩ <;> rw [hw] at h <;> cases h
  · exact absurd ht (busError_resp_ne_ok s)
  · exact .inr ⟨_, errorCode_ne_none .badOp, by rw [status_rejectCommand _ _ hp, op_of_decodeCommand hd]⟩
  · rw [← opcode_of_decodeCommand hd]
    cases rejectionCause i s with
    | none => exact .inl (status_acceptCommand i s)
    | some c => exact .inr ⟨_, errorCode_ne_none c, status_rejectCommand _ _ hp⟩

/-- Settles O27: the rows of R41's table, each from what its step leaves in the STATUS fields. -/
theorem statusEffectsFollowTheTable : Obligations.StatusEffectsFollowTheTable := by
  unfold Obligations.StatusEffectsFollowTheTable
  refine ⟨fun s t off hact => ?_, fun s t v hact ht => ?_, fun s t off v ho hact _ => status_of_dinWrite ho hact,
    fun s t off v hact => (moves_of_act hact).status_of_error, fun s t v hact => status_of_ctrlWrite hact,
    fun s t p hp hact => ?_, fun s t hact => ?_⟩
  · obtain ⟨r, hr⟩ := hostRead_cases off s
    obtain rfl : { s with resp := some r } = t := by simpa [act, transaction, hr] using hact
    rfl
  · obtain ⟨-, rfl⟩ := eq_setKey_of_okay hact ht
    rfl
  · obtain rfl : completion p.op p s = t := by simpa [act_complete hp] using hact
    exact status_completion ..
  · obtain rfl : resetStep s = t := by simpa [act] using hact
    rfl

/-- Settles O30: each move but reset that writes one of the three registers is the accepted write of that register, with nothing in flight. -/
theorem operandRegistersChangeOnlyByTheirWrites : Obligations.OperandRegistersChangeOnlyByTheirWrites := by
  unfold Obligations.OperandRegistersChangeOnlyByTheirWrites
  intro s t e hact hne
  cases moves_of_act hact with
  | key off v he hr hw hp =>
    obtain rfl := eq_offset_of_regAt? hr
    exact ⟨fun _ => ⟨hp, v, he⟩, by simp, by simp⟩
  | dinA off v he hr hw hp =>
    obtain rfl := eq_offset_of_regAt? hr
    exact ⟨by simp, fun _ => ⟨hp, v, he⟩, by simp⟩
  | dinB off v he hr hw hp =>
    obtain rfl := eq_offset_of_regAt? hr
    exact ⟨by simp, by simp, fun _ => ⟨hp, v, he⟩⟩
  | reset he => exact absurd he hne
  | _ => simp

end Sys2Proof.Machine
end

section
/-! O34, O35, O58 (10_state.md R38 to R40, R244): what the steps do not read, and that nothing writes the S-box. -/

namespace Sys2Proof.Machine

/-- A completion reads PEND, W and the S-box: two states with the same store and table are left with the same store, and with the same RESULT unless the command is KEYEXP (R38). -/
theorem completion_congr (i : Instr) (p : Pending) {s t : State} (hw : s.w = t.w) (hT : s.sbox = t.sbox) :
    (completion i p s).w = (completion i p t).w ∧
    (i ≠ .keyexp → (completion i p s).result = (completion i p t).result) := by
  refine ⟨by simp [hw, hT], fun hi => ?_⟩
  cases i with
  | keyexp => exact absurd rfl hi
  | _ => simp [completion, hw, hT]

/-- Settles O34: the engine's turn is the completion, which reads PEND, W and the table alone. -/
theorem completionReadsOnlyPendAndW : Obligations.CompletionReadsOnlyPendAndW := by
  unfold Obligations.CompletionReadsOnlyPendAndW
  intro s t p hs ht hw hT
  obtain ⟨hkeys, hresult⟩ := completion_congr p.op p hw hT
  exact ⟨_, _, act_complete hs, act_complete ht, hkeys, hresult, fun hop => by rw [hop, completion_keyexp_result]⟩

/-- The update f changes nothing that a host write computes from: it leaves PEND and the rejection conditions, and commutes with every write a transaction can make, an acceptance aside. -/
structure Unread (f : State → State) : Prop where
  pend : ∀ s, (f s).pend = s.pend
  cause : ∀ i s, rejectionCause i (f s) = rejectionCause i s
  okay : ∀ x s, okay x (f s) = f (okay x s)
  busError : ∀ s, busError (f s) = f (busError s)
  reject : ∀ op c s, rejectCommand op c (f s) = f (rejectCommand op c s)
  setKey : ∀ x s, setKey x (f s) = f (setKey x s)
  setDinA : ∀ x s, setDinA x (f s) = f (setDinA x s)
  setDinB : ∀ x s, setDinB x (f s) = f (setDinB x s)

/-- No write computes from RESULT (R244), the orchestrator's registers (R39) or the S-box (R40). -/
theorem unread_hidden (fr : Block → Block) (fo : Orch → Orch) (fT : SBox → SBox) :
    Unread fun s => { s with result := fr s.result, orch := fo s.orch, sbox := fT s.sbox } where
  pend _ := rfl
  cause i _ := rejectionCause_congr i rfl rfl rfl
  okay _ _ := rfl
  busError _ := rfl
  reject _ _ _ := rfl
  setKey _ _ := rfl
  setDinA _ _ := rfl
  setDinB _ _ := rfl

theorem unread_result (x : Block) : Unread fun s => { s with result := x } := unread_hidden (fun _ => x) id id

theorem unread_orch (o : Orch) : Unread fun s => { s with orch := o } := unread_hidden id (fun _ => o) id

theorem unread_sbox (T : SBox) : Unread fun s => { s with sbox := T } := unread_hidden id id fun _ => T

/-- What a run from s does, it does from the updated state too: it commutes with f, or it is the acceptance of the same command from either. -/
def Follows (f : State → State) (run : State → Host.Outcome State Fault Refusal) (s : State) : Prop :=
  ∃ t, run s = .next t ∧
    (run (f s) = .next (f t) ∨ ∃ i, t = acceptCommand i s ∧ run (f s) = .next (acceptCommand i (f s)))

section Unread
variable {f : State → State} (hf : Unread f)
include hf

/-- A write of an operand register commutes with an update it does not read. -/
theorem Unread.writeOperand_comm {set : Block → State → State} (hset : ∀ x s, set x (f s) = f (set x s)) (v : BusWord)
    (s : State) : writeOperand set v (f s) = f (writeOperand set v s) := by
  by_cases h : v.extractLsb' 16 16 ≠ 0#16 ∨ s.pend.isSome = true
  · rw [writeOperand_refuses _ h, writeOperand_refuses _ (by rwa [hf.pend]), hf.busError]
  · have hv : v.extractLsb' 16 16 = 0#16 := by_contra fun hv => h (.inl hv)
    have hp : s.pend = none := by simpa using fun hp => h (.inr hp)
    rw [writeOperand_accepts _ hv hp, writeOperand_accepts _ hv (by rwa [hf.pend]), hset, hf.okay]

/-- A write of CTRL follows an update it does not read. -/
theorem Unread.follows_writeCtrl (v : BusWord) (s : State) : Follows f (writeCtrl v) s := by
  cases hp : s.pend with
  | some p =>
    have hpf : (f s).pend = some p := by rw [hf.pend, hp]
    exact ⟨_, writeCtrl_inFlight v hp, .inl (by rw [writeCtrl_inFlight v hpf, hf.busError])⟩
  | none =>
    have hpf : (f s).pend = none := by rw [hf.pend, hp]
    cases hd : decodeCommand v with
    | illegalWord =>
      exact ⟨_, writeCtrl_illegalWord hd s, .inl (by rw [writeCtrl_illegalWord hd, hf.busError])⟩
    | reservedOp op =>
      exact ⟨_, writeCtrl_reservedOp hp hd, .inl (by rw [writeCtrl_reservedOp hpf hd, hf.reject])⟩
    | command i =>
      refine ⟨_, writeCtrl_command hp hd, ?_⟩
      rw [writeCtrl_command hpf hd, hf.cause]
      cases rejectionCause i s with
      | none => exact .inr ⟨i, rfl, rfl⟩
      | some c => exact .inl (by rw [issueCommand_some, issueCommand_some, hf.reject])

/-- A host write follows an update that writes do not read. -/
theorem Unread.follows_hostWrite (off : Offset) (v : BusWord) (s : State) : Follows f (hostWrite off v) s := by
  unfold Follows hostWrite
  cases regAt? off with
  | none => exact ⟨_, rfl, .inl (by rw [hf.busError])⟩
  | some r =>
    cases r with
    | ctrl => exact hf.follows_writeCtrl v s
    | key => exact ⟨_, rfl, .inl (by simp only [hf.writeOperand_comm hf.setKey])⟩
    | dinA => exact ⟨_, rfl, .inl (by simp only [hf.writeOperand_comm hf.setDinA])⟩
    | dinB => exact ⟨_, rfl, .inl (by simp only [hf.writeOperand_comm hf.setDinB])⟩
    | _ => exact ⟨_, rfl, .inl (by simp only [hf.busError])⟩

/-- A read of a register whose word the update leaves commutes with it. -/
theorem Unread.hostRead_comm {off : Offset} {s : State} (hw : ∀ r, off = r.offset → readWord r (f s) = readWord r s) :
    hostRead off (f s) = f (hostRead off s) := by
  unfold hostRead
  cases hr : regAt? off with
  | none => exact hf.busError s
  | some r =>
    simp only [hw r (eq_offset_of_regAt? hr)]
    exact hf.okay _ s

/-- A transaction follows an update that writes do not read, if it reads no register whose word the update changes. -/
theorem Unread.follows_transaction {r : Request} {s : State}
    (hw : ∀ reg : Reg, r = .read reg.offset → readWord reg (f s) = readWord reg s) :
    Follows f (transaction r) s := by
  cases r with
  | read off => exact ⟨_, rfl, .inl (congrArg _ (hf.hostRead_comm fun reg h => hw reg (h ▸ rfl)))⟩
  | write off v => exact hf.follows_hostWrite off v s

end Unread

/-- RESULT is in no register's word but its own. -/
theorem readWord_withResult {r : Reg} (hr : r ≠ .result) (x : Block) (s : State) :
    readWord r { s with result := x } = readWord r s := by
  cases r with
  | result => exact absurd rfl hr
  | _ => rfl

/-- Neither the orchestrator's registers nor the S-box is in any register's word. -/
theorem readWord_withOrch_withSbox (r : Reg) (o : Orch) (T : SBox) (s : State) :
    readWord r { s with orch := o, sbox := T } = readWord r s := by
  cases r <;> rfl

/-- RESULT goes unread by every step but a read of it (R244). -/
theorem act_withResult {e : Input} (he : e ≠ .host (.read 0x14#6)) (s : State) (x : Block) :
    ∃ t t', act e s = .next t ∧ act e { s with result := x } = .next t' ∧ { t' with result := t.result } = t ∧
      (e = .complete → ∀ p, s.pend = some p → p.op ≠ .keyexp → t'.result = t.result) := by
  cases e with
  | host r =>
    have hword (reg : Reg) (hreg : r = .read reg.offset) : readWord reg { s with result := x } = readWord reg s :=
      readWord_withResult (by rintro rfl; exact he (hreg ▸ rfl)) x s
    obtain ⟨t, ht, ht' | ⟨i, rfl, ht'⟩⟩ := (unread_result x).follows_transaction hword
    · exact ⟨t, _, ht, ht', rfl, nofun⟩
    · exact ⟨_, _, ht, ht', rfl, nofun⟩
  | complete =>
    rcases Option.eq_none_or_eq_some s.pend with hp | ⟨p, hp⟩
    · exact ⟨s, _, completeStep_idle hp, completeStep_idle hp, rfl, fun _ p hq => by simp [hp] at hq⟩
    · refine ⟨_, _, act_complete hp, act_complete (s := { s with result := x }) hp, ?_, fun _ q hq hop => ?_⟩
      · cases p.op <;> rfl
      · obtain rfl : p = q := by simpa [hp] using hq
        exact (completion_congr (s := { s with result := x }) (t := s) p.op p rfl rfl).2 hop
  | reset => exact ⟨_, _, rfl, rfl, rfl, nofun⟩

/-- The orchestrator's registers go unread by every architectural effect (R39). -/
theorem act_withOrch (e : Input) (s : State) (o : Orch) :
    ∃ t t', act e s = .next t ∧ act e { s with orch := o } = .next t' ∧
      architectural t' = architectural t ∧ t'.resp = t.resp := by
  cases e with
  | host r =>
    obtain ⟨t, ht, ht' | ⟨i, rfl, ht'⟩⟩ :=
      (unread_orch o).follows_transaction (r := r) fun reg _ => readWord_withOrch_withSbox reg o s.sbox s
    · exact ⟨t, _, ht, ht', rfl, rfl⟩
    · exact ⟨_, _, ht, ht', rfl, rfl⟩
  | complete =>
    rcases Option.eq_none_or_eq_some s.pend with hp | ⟨p, hp⟩
    · exact ⟨s, _, completeStep_idle hp, completeStep_idle hp, rfl, rfl⟩
    · refine ⟨_, _, act_complete hp, act_complete (s := { s with orch := o }) hp, ?_, ?_⟩ <;> cases p.op <;> rfl
  | reset => exact ⟨_, _, rfl, rfl, rfl, rfl⟩

/-- Settles O35: a transaction follows an update of RESULT or of the orchestrator's registers, and a completion writes over what it does not read. -/
theorem resultAndOrchestratorAreNotRead : Obligations.ResultAndOrchestratorAreNotRead := by
  unfold Obligations.ResultAndOrchestratorAreNotRead
  exact ⟨fun e s x he => act_withResult he s x, act_withOrch⟩

/-- A command's next step leaves the S-box, whichever stage of its life it is (R40). -/
theorem runCommand_completion_sbox (i : Instr) (c : Option CmdErrorCause) (s : State) :
    (runCommand i c (completion i) s).sbox = s.sbox := by
  cases hp : s.pend with
  | none => rw [runCommand_idle hp, issueCommand_sbox]
  | some p =>
    by_cases hi : p.op = i
    · rw [runCommand_inFlight hp hi, completion_sbox]
    · rw [runCommand_other hp hi, busError_sbox]

/-- The completion edge leaves the S-box. -/
@[simp] theorem orchComplete_sbox (s : State) : (orchComplete s).sbox = s.sbox := by
  unfold orchComplete
  split
  · rfl
  · split <;> rfl

/-- A clock edge of the engine leaves the S-box. -/
@[simp] theorem engineEdge_sbox (L : Latency) (s : State) : (engineEdge L s).sbox = s.sbox := by
  unfold engineEdge
  split
  · rfl
  · split
    · exact orchComplete_sbox s
    · rfl

/-- What the host's part of a cycle without reset can do: drop the response, or make the move of its transaction. -/
theorem hostPart_cases (q : Ports) (s : State) :
    ∃ u, hostPart q s = .next u ∧ (u = { s with resp := none } ∨ Moves (.host q.request) s u) := by
  unfold hostPart
  split
  · obtain ⟨u, hu, m⟩ := act_moves (.host q.request) s
    exact ⟨u, hu, .inr m⟩
  · exact ⟨_, rfl, .inl rfl⟩

/-- What a cycle can do: reset, or the host's part and then the engine's (R67). -/
theorem cycle_cases {L : Latency} {q : Ports} {s t : State} (h : cycle L q s = .next t) :
    t = resetCycle q s ∨
    ∃ u, (u = { s with resp := none } ∨ Moves (.host q.request) s u) ∧ t = afterTransaction L s.busy u := by
  unfold cycle at h
  split at h
  · exact .inl (Host.Outcome.next.inj h).symm
  · obtain ⟨u, hu, hcases⟩ := hostPart_cases q s
    rw [hu] at h
    exact .inr ⟨u, hcases, (Host.Outcome.next.inj h).symm⟩

/-- A cycle leaves the S-box (R40). -/
theorem cycle_sbox {L : Latency} {q : Ports} {s t : State} (h : cycle L q s = .next t) : t.sbox = s.sbox := by
  rcases cycle_cases h with rfl | ⟨u, hu, rfl⟩
  · unfold resetCycle
    split <;> rfl
  · have husbox : u.sbox = s.sbox := by
      rcases hu with rfl | m
      · rfl
      · exact m.sbox_eq
    unfold afterTransaction
    split
    · rw [engineEdge_sbox, husbox]
    · exact husbox

/-- A run of cycles leaves the S-box. -/
theorem cycles_sbox {L : Latency} {qs : List Ports} {s t : State} (h : cycles L qs s = .next t) : t.sbox = s.sbox := by
  induction qs generalizing s with
  | nil =>
    obtain rfl : s = t := by simpa [cycles] using h
    rfl
  | cons q qs ih =>
    simp only [cycles] at h
    split at h
    · next u hu => rw [ih h, cycle_sbox hu]
    · cases h
    · cases h

/-- No transaction computes from the S-box or writes it (R40). -/
theorem act_host_withSbox (r : Request) (s : State) (T : SBox) :
    ∃ t, act (.host r) s = .next t ∧ act (.host r) { s with sbox := T } = .next { t with sbox := T } := by
  obtain ⟨t, ht, ht' | ⟨i, rfl, ht'⟩⟩ :=
    (unread_sbox T).follows_transaction (r := r) fun reg _ => readWord_withOrch_withSbox reg s.orch T s
  · exact ⟨t, ht, ht'⟩
  · exact ⟨_, ht, ht'⟩

/-- Settles O58: each move, each stage of a command's life and each cycle leaves the table, and a transaction follows an update of it. -/
theorem sboxIsAConstant : Obligations.SboxIsAConstant := by
  unfold Obligations.SboxIsAConstant
  refine ⟨fun s t e h => (moves_of_act h).sbox_eq, fun i s t h => ?_, fun L qs s t => cycles_sbox, act_host_withSbox⟩
  obtain rfl : runCommand i (rejectionCause i s) (completion i) s = t := by simpa [exec_eq_runCommand] using h
  exact runCommand_completion_sbox ..

end Sys2Proof.Machine
end

section
/-! O53, O56 (10_state.md R39, 44_cipher_core.md R181, R183, R186): the orchestrator's registers from cycle to cycle, and what its phases compute. -/

namespace Sys2Proof.Machine

/-- `vecToInt` undoes `intToVec` (R142). -/
@[simp] theorem vecToInt_intToVec (x : Block) : vecToInt (intToVec x) = x := pack_nibs x

/-- The state-vector register at the end of a command does not depend on whether one more edge has run: the edge takes over the first of the remaining phases, or waits in the last (R181). -/
theorem orchFinish_orchAdvance (T : SBox) (p : Pending) (w : KeyStore) (o : Orch) :
    orchFinish T p w (orchAdvance T p w o) = orchFinish T p w o := by
  obtain ⟨ph, v, n⟩ := o
  cases ph <;> rfl

/-- The phases end in the same vector after any number of edges. -/
theorem orchFinish_orchAfter (T : SBox) (p : Pending) (w : KeyStore) (n : Nat) :
    orchFinish T p w (orchAfter T p w n) = orchFinish T p w (orchStart p) := by
  induction n with
  | zero => rfl
  | succ n ih => rw [orchAfter, orchFinish_orchAdvance, ih]

/-- One more edge leaves {w2, w3} as it is: only K1's leads to K2, and K1's work is the first expansion (R162, R181). -/
theorem orchRk1_orchAdvance (T : SBox) (p : Pending) (w : KeyStore) (o : Orch) :
    orchRk1 T p (orchAdvance T p w o) = orchRk1 T p o := by
  obtain ⟨ph, v, n⟩ := o
  cases ph with
  | k1 => exact vecToInt_intToVec _
  | _ => rfl

/-- {w2, w3} is the first expansion of the key after any number of edges. -/
theorem orchRk1_orchAfter (T : SBox) (p : Pending) (w : KeyStore) (n : Nat) :
    orchRk1 T p (orchAfter T p w n) = expandFirst T p.k := by
  induction n with
  | zero =>
    have hfirst : firstPhase p.op ≠ .k2 := by cases p.op <;> decide
    exact if_neg hfirst
  | succ n ih => rw [orchAfter, orchRk1_orchAdvance, ih]

/-- Two expansions, packed with the key, are the key schedule (R162, R163, R164). -/
theorem storeOf_expand (T : SBox) (k : Block) :
    storeOf k (expandFirst T k) (expandSecond T (expandFirst T k)) = expandKey T k := by
  simp [storeOf, expandFirst, expandSecond, expandKey]

/-- The phases of a command, run from its issue: encryption (R183), decryption (R186), the second expansion of the first (R162), or the unit's result (R180). -/
theorem orchFinish_orchStart (T : SBox) (p : Pending) (w : KeyStore) :
    vecToInt (orchFinish T p w (orchStart p)) =
      match p.op with
      | .enc => encrypt T p.a w
      | .dec => decrypt T p.a w
      | .keyexp => expandSecond T (expandFirst T p.k)
      | _ => unitResult T p := by
  obtain ⟨op, a, b, k⟩ := p
  cases op with
  | enc => rfl
  | dec => rfl
  | keyexp => simp [orchFinish, orchStart, firstPhase, nextPhase, phaseWork]
  | _ => exact vecToInt_intToVec _

/-- Settles O56: the edges that have run do not matter to what the phases end in, and from the issue they are the command's function. -/
theorem phasesComputeTheCommand : Obligations.PhasesComputeTheCommand := by
  unfold Obligations.PhasesComputeTheCommand
  intro T p w n
  rw [orchFinish_orchAfter, orchRk1_orchAfter, orchFinish_orchStart]
  refine ⟨fun hop => by rw [hop], fun hop => by rw [hop], fun hop => by rw [hop, storeOf_expand], fun hu => ?_⟩
  cases hop : p.op <;> simp [hop, firstPhase] at hu ⊢

/-- An edge counts one cycle (R39). -/
theorem orchAdvance_cycles (T : SBox) (p : Pending) (w : KeyStore) (o : Orch) :
    (orchAdvance T p w o).cycles = o.cycles + 1 := by
  unfold orchAdvance
  split <;> rfl

/-- With nothing in flight and the orchestrator idle, the cycle level's invariant holds. -/
theorem CycleInv.of_idle (L : Latency) {s : State} (hp : s.pend = none) (ho : s.orch = Orch.idle) : CycleInv L s where
  idle _ := ho
  inFlight := by simp [hp]

/-- The response is no part of the cycle level's invariant. -/
theorem CycleInv.with_resp {L : Latency} {s : State} (h : CycleInv L s) (r : Option Response) :
    CycleInv L { s with resp := r } where
  __ := h

/-- Every command has a latency of at least 1 (R250). -/
theorem latencyOf_pos {L : Latency} (hL : latencyWf L = true) (i : Instr) : 0 < latencyOf L i := by
  obtain ⟨⟨hu, hk⟩, hc⟩ : (1 ≤ L.unit ∧ 1 ≤ L.keyexp) ∧ 1 ≤ L.cipher := by simpa [latencyWf] using hL
  cases i <;> assumption

/-- An acceptance starts the orchestrator, no edge after the issue (R250, log 11). -/
theorem CycleInv.after_acceptCommand {L : Latency} (hL : latencyWf L = true) (i : Instr) (s : State) :
    CycleInv L (acceptCommand i s) where
  idle h := by simp at h
  inFlight p hp := by
    obtain rfl : snapshot i s = p := by simpa using hp
    exact ⟨rfl, latencyOf_pos hL i⟩

/-- Every move keeps the cycle level's invariant: a command is left as it is, started, or ended with the orchestrator idle. -/
theorem Moves.cycleInv {L : Latency} (hL : latencyWf L = true) {e : Input} {s t : State} (m : Moves e s t)
    (h : CycleInv L s) : CycleInv L t := by
  cases m with
  | read off r => exact h.with_resp r
  | refused => exact h.with_resp _
  | issue off v i he hr hd hp =>
    cases rejectionCause i s with
    | none => exact .after_acceptCommand hL i s
    | some c => exact .of_idle L hp (h.idle hp)
  | idle => exact h
  | complete p => exact .of_idle L (completion_pend ..) (completion_orch ..)
  | reset => exact .of_idle L rfl rfl
  | key off v he hr hw hp => exact .of_idle L hp (h.idle hp)
  | dinA off v he hr hw hp => exact .of_idle L hp (h.idle hp)
  | dinB off v he hr hw hp => exact .of_idle L hp (h.idle hp)
  | badOp off v op he hr hd hp => exact .of_idle L hp (h.idle hp)

/-- The completion edge leaves nothing in flight and the orchestrator idle. -/
theorem orchComplete_idle {s : State} {p : Pending} (hp : s.pend = some p) :
    (orchComplete s).pend = none ∧ (orchComplete s).orch = Orch.idle := by
  simp only [orchComplete, hp]
  split <;> exact ⟨rfl, rfl⟩

/-- A clock edge keeps the cycle level's invariant: the command completes, or it is one edge further and still short of its latency. -/
theorem CycleInv.after_engineEdge {L : Latency} {s : State} (h : CycleInv L s) : CycleInv L (engineEdge L s) := by
  cases hp : s.pend with
  | none => simpa only [engineEdge, hp] using h
  | some p =>
    simp only [engineEdge, hp]
    split
    · obtain ⟨hpend, horch⟩ := orchComplete_idle hp
      exact .of_idle L hpend horch
    · next hshort =>
      obtain ⟨horch, -⟩ := h.inFlight p hp
      refine ⟨fun hn => by simp at hn, fun q hq => ?_⟩
      obtain rfl : p = q := by simpa using hq
      refine ⟨?_, by rw [orchAdvance_cycles]; omega⟩
      calc orchAdvance s.sbox p s.w s.orch
          = orchAdvance s.sbox p s.w (orchAfter s.sbox p s.w s.orch.cycles) := by rw [← horch]
        _ = orchAfter s.sbox p s.w (orchAdvance s.sbox p s.w s.orch).cycles := by rw [orchAdvance_cycles, orchAfter]

/-- Settles O53: a cycle is a reset, or the host's part and then the engine's, and each keeps the invariant. -/
theorem cycleInvariantIsKept : Obligations.CycleInvariantIsKept := by
  unfold Obligations.CycleInvariantIsKept
  intro L q s t hL h hcycle
  rcases cycle_cases hcycle with rfl | ⟨u, hu, rfl⟩
  · unfold resetCycle
    split <;> exact .of_idle L rfl rfl
  · have huInv : CycleInv L u := by
      rcases hu with rfl | m
      · exact h.with_resp none
      · exact m.cycleInv hL h
    unfold afterTransaction
    split
    · exact huInv.after_engineEdge
    · exact huInv

end Sys2Proof.Machine
end

section
/-! SUPPORT. The facts the statements of 20_memory.md rest on: the offsets and the command words that name nothing, a write's checks in R53's order, and that no step computes from the response. -/

namespace Sys2Proof.Machine

open PseudoCode

/-- The offsets that name no register are the misaligned ones and those above RK2's (R58). -/
theorem regAt?_eq_none_iff (off : Offset) : regAt? off = none ↔ off.extractLsb' 0 2 ≠ 0#2 ∨ 0x20#6 < off := by
  revert off
  decide

/-- A register's offset is aligned and not above RK2's (R22). -/
theorem offset_inWindow (r : Reg) : ¬((r.offset).extractLsb' 0 2 ≠ 0#2 ∨ 0x20#6 < r.offset) := by
  cases r <;> decide

/-- A word with its reserved bits zero is its OP field, zero-extended (R72). -/
theorem eq_setWidth_opField {v : BusWord} (h : v.extractLsb' 4 28 = 0#28) : v = (opField v).setWidth 32 := by
  have hnat : v.toNat / 2 ^ 4 % 2 ^ 28 = 0 := by
    simpa [BitVec.extractLsb'_toNat, Nat.shiftRight_eq_div_pow] using congrArg BitVec.toNat h
  refine BitVec.eq_of_toNat_eq ?_
  simp only [opField, BitVec.toNat_setWidth, BitVec.extractLsb'_toNat, Nat.shiftRight_zero]
  omega

/-- A word with its reserved bits zero is the command of its opcode, or a reserved opcode (R73, R76). -/
theorem decodeCommand_setWidth (op : BitVec 4) :
    decodeCommand (op.setWidth 32) = (commandOf op).elim (.reservedOp op) .command := by
  revert op
  decide

/-- The illegal words are those with a reserved bit set (R73). -/
theorem decodeCommand_eq_illegalWord_iff (v : BusWord) : decodeCommand v = .illegalWord ↔ v.extractLsb' 4 28 ≠ 0#28 := by
  unfold decodeCommand commandWordWf
  split
  · split <;> simp_all
  · simp_all

/-- A legal word decodes by its OP field alone (R73). -/
theorem decodeCommand_of_wf {v : BusWord} (h : v.extractLsb' 4 28 = 0#28) :
    decodeCommand v = (commandOf (opField v)).elim (.reservedOp (opField v)) .command := by
  rw [← decodeCommand_setWidth, ← eq_setWidth_opField h]

/-- The reserved opcodes are those with no command (R74, R76). -/
theorem commandOf_eq_none_iff (op : BitVec 4) :
    commandOf op = none ↔ op = 0x0#4 ∨ op = 0xC#4 ∨ op = 0xD#4 ∨ op = 0xE#4 ∨ op = 0xF#4 := by
  revert op
  decide

/-- An opcode's command has that opcode (R74). -/
theorem eq_opcode_of_commandOf {op : BitVec 4} {i : Instr} (h : commandOf op = some i) : op = opcode i := by
  cases i <;> revert op <;> decide

/-- A CTRL write of a command's word, with nothing in flight, runs the command (R55). -/
theorem writeCtrl_eq_exec {v : BusWord} {i : Instr} {s : State} (hp : s.pend = none)
    (hd : decodeCommand v = .command i) : writeCtrl v s = exec i s := by
  rw [writeCtrl_command hp hd, exec_idle hp]

/-- A table word that names a command is that command's word, put on the bus (R74). -/
theorem decodeCommand_commandWordOf {nbits w : Nat} {i : Instr} (h : decodeTableWord nbits w = some i) :
    decodeCommand (commandWordOf nbits w) = .command i := by
  unfold decodeTableWord at h
  split at h
  · split at h
    · next j hj => rwa [Option.some.inj h] at hj
    · cases h
    · cases h
  · cases h

/-- A write of an operand register, with its two checks in R53's order. -/
theorem writeOperand_eq (set : Block → State → State) (v : BusWord) (s : State) :
    writeOperand set v s = if v.extractLsb' 16 16 ≠ 0#16 then busError s
      else if s.pend.isSome then busError s else okay 0#32 (set (writtenBlock v) s) := by
  by_cases hv : v.extractLsb' 16 16 = 0#16
  · cases hp : s.pend <;> simp [writeOperand, tooWide, State.busy, hv, hp]
  · simp [writeOperand_refuses set (.inl hv), hv]

/-! ### The response is an output only (R54, log 4) -/

section Response
variable (s : State) (x : Option Response)

/-- A bus error leaves nothing of the response before it. -/
theorem busError_withResp : busError { s with resp := x } = busError s := rfl

/-- A read answers the same whatever the response before it was. -/
theorem hostRead_withResp (off : Offset) : hostRead off { s with resp := x } = hostRead off s := by
  unfold hostRead
  cases regAt? off with
  | none => rfl
  | some r => cases r <;> rfl

/-- A write of an operand register answers the same whatever the response before it was. -/
theorem writeOperand_withResp (set : Block → State → State)
    (hset : ∀ b, okay 0#32 (set b { s with resp := x }) = okay 0#32 (set b s)) (v : BusWord) :
    writeOperand set v { s with resp := x } = writeOperand set v s := by
  rw [writeOperand_eq, writeOperand_eq, hset]
  rfl

/-- A write of CTRL answers the same whatever the response before it was. -/
theorem writeCtrl_withResp (v : BusWord) : writeCtrl v { s with resp := x } = writeCtrl v s := by
  rcases Option.eq_none_or_eq_some s.pend with hp | ⟨p, hp⟩
  · cases hd : decodeCommand v with
    | illegalWord => rw [writeCtrl_illegalWord hd, writeCtrl_illegalWord hd, busError_withResp]
    | reservedOp op =>
      rw [writeCtrl_reservedOp hp hd, writeCtrl_reservedOp (s := { s with resp := x }) hp hd]
      rfl
    | command i =>
      rw [writeCtrl_command hp hd, writeCtrl_command (s := { s with resp := x }) hp hd,
        rejectionCause_congr i (s := s) (t := { s with resp := x }) rfl rfl rfl]
      cases rejectionCause i s <;> rfl
  · rw [writeCtrl_inFlight v hp, writeCtrl_inFlight v (s := { s with resp := x }) hp, busError_withResp]

/-- A write answers the same whatever the response before it was. -/
theorem hostWrite_withResp (off : Offset) (v : BusWord) : hostWrite off v { s with resp := x } = hostWrite off v s := by
  unfold hostWrite
  cases regAt? off with
  | none => rfl
  | some r =>
    cases r with
    | ctrl => exact writeCtrl_withResp s x v
    | key => exact congrArg Host.Outcome.next (writeOperand_withResp s x setKey (fun _ => rfl) v)
    | dinA => exact congrArg Host.Outcome.next (writeOperand_withResp s x setDinA (fun _ => rfl) v)
    | dinB => exact congrArg Host.Outcome.next (writeOperand_withResp s x setDinB (fun _ => rfl) v)
    | _ => rfl

/-- Every transaction writes the response, and none reads it. -/
theorem transaction_withResp (r : Request) : transaction r { s with resp := x } = transaction r s := by
  cases r with
  | read off => exact congrArg Host.Outcome.next (hostRead_withResp s x off)
  | write off v => exact hostWrite_withResp s x off v

end Response

end Sys2Proof.Machine
end

section
/-! O12, O14, O15 (20_memory.md R50, R52, R53, R55, R56, 30_encoding.md R73): what a step runs, and the machine's read, write and issue as the spec's pseudocode. -/

namespace Sys2Proof.Machine

open PseudoCode

/-- Settles O12: a step acts on the head of the stream, or takes the engine's turn; a CTRL write of a command's word with nothing in flight is `exec`, and so is the engine's turn with a command in flight. -/
theorem stepRunsTheDecodedCommand : Obligations.StepRunsTheDecodedCommand := by
  unfold Obligations.StepRunsTheDecodedCommand
  refine ⟨fun s e rest h => step_cons h, fun s rest v i h hp hd => ?_, fun s rest p h hp => ?_, fun s p h hp => ?_,
    fun s h hp => ?_, fun s nbits w i hp hw => ?_⟩
  · rw [step_cons h, act_write_ctrl]
    exact writeCtrl_eq_exec hp hd
  · rw [step_cons h, act_complete (s := { s with inputs := rest }) hp, exec_inFlight (s := { s with inputs := rest }) hp]
  · rw [step_nil h, act_complete hp, exec_inFlight hp]
  · rw [step_nil h]
    exact completeStep_idle hp
  · have hstep : step (s.withFetchWord nbits w) = writeCtrl (commandWordOf nbits w) s :=
      step_cons (s := s.withFetchWord nbits w) rfl
    rw [hstep, writeCtrl_eq_exec hp (decodeCommand_commandWordOf hw)]

/-- A read is R52's. -/
theorem hostRead_eq_read (off : Offset) (s : State) : hostRead off s = PseudoCode.read off s := by
  unfold hostRead
  cases hr : regAt? off with
  | none => exact (if_pos ((regAt?_eq_none_iff off).mp hr)).symm
  | some r =>
    obtain rfl := eq_offset_of_regAt? hr
    refine Eq.trans ?_ (if_neg (offset_inWindow r)).symm
    cases r <;> rfl

/-- Settles O14: a step with a read at the head of the stream is the read, which is R52's. -/
theorem readFollowsThePseudocode : Obligations.ReadFollowsThePseudocode := by
  unfold Obligations.ReadFollowsThePseudocode
  intro s off rest h
  rw [step_cons h, ← hostRead_eq_read]
  rfl

/-- `Issue` of a command's opcode is the rejection with the command's cause, if it has one, or the acceptance (R55). -/
theorem issue_opcode (i : Instr) (s : State) : PseudoCode.issue (opcode i) s =
    (rejectionCause i s).elim (accepted i (opcode i) s) fun c => rejected (opcode i) (errorCode c) s := by
  cases i with
  | gfmul =>
    by_cases ha : s.dinA.extractLsb' 4 12 = 0#12 <;> by_cases hb : s.dinB.extractLsb' 4 12 = 0#12 <;>
      simp [issue, commandOf, opcode, opField, encode, accepted, rejected, rejectionCause, nibbleRangeCause, notNibbles,
        errorCode, ha, hb]
  | rotsub =>
    by_cases ha : s.dinA.extractLsb' 8 8 = 0#8 <;>
      simp [issue, commandOf, opcode, opField, encode, accepted, rejected, rejectionCause, byteRangeCause, notByte,
        errorCode, ha]
  | enc | dec =>
    cases hk : s.kv <;>
      simp [issue, commandOf, opcode, opField, encode, accepted, rejected, rejectionCause, noKeyCause, errorCode, hk]
  | _ => rfl

/-- The issue of a command is `Issue` of its opcode, with some values in the orchestrator's registers, which R55 leaves open. -/
theorem issueCommand_eq_issue (i : Instr) (s : State) :
    ∃ o, issueCommand i (rejectionCause i s) s = { PseudoCode.issue (opcode i) s with orch := o } := by
  rw [issue_opcode]
  cases rejectionCause i s with
  | none => exact ⟨orchStart (snapshot i s), rfl⟩
  | some c => exact ⟨s.orch, rfl⟩

/-- `Issue` of an opcode with no command is the BADOP rejection (R55). -/
theorem issue_reservedOp {op : BitVec 4} (h : commandOf op = none) (s : State) :
    PseudoCode.issue op s = rejectCommand op .badOp s :=
  if_pos ((commandOf_eq_none_iff op).mp h)

/-- A CTRL write of a legal word with nothing in flight is `Issue` of its OP field (R53). -/
theorem writeCtrl_eq_issue {v : BusWord} {s : State} (hv : v.extractLsb' 4 28 = 0#28) (hp : s.pend = none) :
    ∃ o, writeCtrl v s = .next { PseudoCode.issue (opField v) s with orch := o } := by
  have hd := decodeCommand_of_wf hv
  cases hc : commandOf (opField v) with
  | none =>
    rw [hc] at hd
    rw [writeCtrl_reservedOp hp hd, issue_reservedOp hc]
    exact ⟨s.orch, rfl⟩
  | some i =>
    rw [hc] at hd
    obtain ⟨o, ho⟩ := issueCommand_eq_issue i s
    exact ⟨o, by rw [writeCtrl_command hp hd, ho, eq_opcode_of_commandOf hc]⟩

/-- A CTRL write is R53's. -/
theorem writeCtrl_eq_write (v : BusWord) (s : State) :
    ∃ o, writeCtrl v s = .next { PseudoCode.write 0x00#6 v s with orch := o } := by
  have hwrite : PseudoCode.write 0x00#6 v s = if v.extractLsb' 4 28 ≠ 0#28 then busError s
      else if s.pend.isSome then busError s else PseudoCode.issue (opField v) s := rfl
  rw [hwrite]
  by_cases hv : v.extractLsb' 4 28 = 0#28
  · cases hp : s.pend with
    | none => simpa [hv] using writeCtrl_eq_issue hv hp
    | some p => exact ⟨s.orch, by simp [writeCtrl_inFlight v hp, hv, busError]⟩
  · exact ⟨s.orch, by simp [writeCtrl_illegalWord ((decodeCommand_eq_illegalWord_iff v).mpr hv), hv, busError]⟩

/-- R53 at KEY's offset is the write of an operand register. -/
theorem write_key (v : BusWord) (s : State) : PseudoCode.write 0x08#6 v s = writeOperand setKey v s :=
  (writeOperand_eq setKey v s).symm

/-- R53 at DIN_A's offset is the write of an operand register. -/
theorem write_dinA (v : BusWord) (s : State) : PseudoCode.write 0x0C#6 v s = writeOperand setDinA v s :=
  (writeOperand_eq setDinA v s).symm

/-- R53 at DIN_B's offset is the write of an operand register. -/
theorem write_dinB (v : BusWord) (s : State) : PseudoCode.write 0x10#6 v s = writeOperand setDinB v s :=
  (writeOperand_eq setDinB v s).symm

/-- A write is R53's, with some values in the orchestrator's registers, which R53 leaves open. -/
theorem hostWrite_eq_write (off : Offset) (v : BusWord) (s : State) :
    ∃ o, hostWrite off v s = .next { PseudoCode.write off v s with orch := o } := by
  cases hr : regAt? off with
  | none =>
    have hwrite : PseudoCode.write off v s = busError s := if_pos ((regAt?_eq_none_iff off).mp hr)
    exact ⟨s.orch, by rw [hwrite, hostWrite, hr]; rfl⟩
  | some r =>
    obtain rfl := eq_offset_of_regAt? hr
    cases r with
    | ctrl => exact writeCtrl_eq_write v s
    | key => exact ⟨_, congrArg _ (write_key v s).symm⟩
    | dinA => exact ⟨_, congrArg _ (write_dinA v s).symm⟩
    | dinB => exact ⟨_, congrArg _ (write_dinB v s).symm⟩
    | _ => exact ⟨s.orch, rfl⟩

/-- Settles O15: a step with a write at the head of the stream is the write, which is R53's. -/
theorem writeFollowsThePseudocode : Obligations.WriteFollowsThePseudocode := by
  unfold Obligations.WriteFollowsThePseudocode
  intro s off v rest h
  rw [step_cons h]
  exact hostWrite_eq_write off v _

end Sys2Proof.Machine
end

section
/-! O18, O33, O51 (20_memory.md R50, R56, R60, R64): transactions made again, the end of a command in flight, and the window's offset. -/

namespace Sys2Proof.Machine

/-- A write of an operand register, made again, changes nothing more: it is refused again, or writes the same value (R60). -/
theorem writeOperand_writeOperand (set : Block → State → State) (hpend : ∀ b s, (set b s).pend = s.pend)
    (hset : ∀ b s, okay 0#32 (set b (okay 0#32 (set b s))) = okay 0#32 (set b s)) (v : BusWord) (s : State) :
    writeOperand set v (writeOperand set v s) = writeOperand set v s := by
  by_cases h : v.extractLsb' 16 16 ≠ 0#16 ∨ s.pend.isSome = true
  · rw [writeOperand_refuses set h, writeOperand_refuses set (s := busError s) h]
    rfl
  · have hv : v.extractLsb' 16 16 = 0#16 := by_contra fun hv => h (.inl hv)
    have hp : s.pend = none := by simpa using fun hp => h (.inr hp)
    rw [writeOperand_accepts set hv hp, writeOperand_accepts set hv (by rw [okay_pend, hpend, hp]), hset]

/-- Settles O18: a read changes the response alone, which no transaction reads, and a write of an operand register is refused again or writes the same value. -/
theorem readsAndOperandWritesAreIdempotent : Obligations.ReadsAndOperandWritesAreIdempotent := by
  unfold Obligations.ReadsAndOperandWritesAreIdempotent
  refine ⟨fun s t off hact => ?_, fun s t off v ho hact => ?_⟩
  · obtain ⟨r, hr⟩ := hostRead_cases off s
    obtain rfl : { s with resp := some r } = t := by simpa [act, transaction, hr] using hact
    exact ⟨rfl, (transaction_withResp s (some r) (.read off)).trans hact⟩
  · rcases ho with rfl | rfl | rfl
    · obtain rfl : writeOperand setKey v s = t := by simpa [act_write_key] using hact
      rw [act_write_key, writeOperand_writeOperand setKey (fun _ _ => rfl) fun _ _ => rfl]
    · obtain rfl : writeOperand setDinA v s = t := by simpa [act_write_dinA] using hact
      rw [act_write_dinA, writeOperand_writeOperand setDinA (fun _ _ => rfl) fun _ _ => rfl]
    · obtain rfl : writeOperand setDinB v s = t := by simpa [act_write_dinB] using hact
      rw [act_write_dinB, writeOperand_writeOperand setDinB (fun _ _ => rfl) fun _ _ => rfl]

/-- Settles O33: a step either ends the command or takes one entry off the stream and leaves it in flight; once the stream has run out, the engine has the turn. -/
theorem commandInFlightEnds : Obligations.CommandInFlightEnds := by
  unfold Obligations.CommandInFlightEnds
  intro s hs
  induction hi : s.inputs generalizing s with
  | nil =>
    obtain ⟨p, hp⟩ := Option.ne_none_iff_exists'.mp hs
    refine ⟨1, completion p.op p s, le_rfl, le_rfl, ?_, completion_pend ..⟩
    have hstep : Host.Core.step Sys2Proof.core s = .next (completion p.op p s) := (step_nil hi).trans (act_complete hp)
    simp only [Host.Core.run, hstep]
  | cons e rest ih =>
    obtain ⟨t, hact, m⟩ := act_moves e { s with inputs := rest }
    have hstep : Host.Core.step Sys2Proof.core s = .next t := (step_cons hi).trans hact
    by_cases ht : t.pend = none
    · exact ⟨1, t, le_rfl, by simp, by simp only [Host.Core.run, hstep], ht⟩
    · obtain ⟨r, rfl⟩ := m.stays_inFlight hs ht
      obtain ⟨n, u, hn, hlen, hrun, hu⟩ := ih _ ht rfl
      refine ⟨n + 1, u, by omega, by simpa using hlen, ?_, hu⟩
      simp only [Host.Core.run, hstep]
      exact hrun

/-- Settles O51: the offset is the low six bits of the distance from a base that is a multiple of 64. -/
theorem windowOffsetIsTheLowAddressBits : Obligations.WindowOffsetIsTheLowAddressBits := by
  unfold Obligations.WindowOffsetIsTheLowAddressBits
  intro base address hbase hle
  have haligned : base % 64 = 0 := by simpa [baseWf] using hbase
  have hoff : (windowOffset base address).toNat = (address - base) % 64 := BitVec.toNat_ofNat _ 6
  exact ⟨hoff, by omega⟩

end Sys2Proof.Machine
end

section
/-! O46 (44_cipher_core.md R185, R187, R188, 41_substitution.md R121, 42_state_transforms.md R152): the cipher's two directions undo each other, and so do the machine's completions. -/

namespace Sys2Proof.Machine

/-- `intToVec` undoes `vecToInt` (R142). -/
@[simp] theorem intToVec_vecToInt (v : StateVec) : intToVec (vecToInt v) = v := by
  simp [intToVec, vecToInt]

/-- A permutation's inverse table undoes the table (R121). -/
theorem sboxInvAt_sboxAt {T : SBox} (hT : T.IsPermutation) (x : Nibble) : sboxInvAt T (sboxAt T x) = x := by
  obtain ⟨hlen, hnodup⟩ := hT
  have hx : x.toNat < T.entries.length := by rw [hlen]; exact x.isLt
  rw [sboxInvAt, sboxAt, List.getD_eq_getElem _ _ hx, hnodup.idxOf_getElem, BitVec.ofNat_toNat, BitVec.setWidth_eq]

/-- A permutation undoes its inverse table (R121): a left inverse of a map of the sixteen nibbles is a right inverse. -/
theorem sboxAt_sboxInvAt {T : SBox} (hT : T.IsPermutation) (x : Nibble) : sboxAt T (sboxInvAt T x) = x := by
  have : Finite Nibble := .of_equiv _ BitVec.equivFin.symm.toEquiv
  have hleft : Function.LeftInverse (sboxInvAt T) (sboxAt T) := sboxInvAt_sboxAt hT
  exact hleft.rightInverse_of_surjective (Finite.surjective_of_injective hleft.injective) x

/-- Inverse substitution undoes substitution (R121, R124). -/
theorem substituteNibblesInv_substituteNibbles {T : SBox} (hT : T.IsPermutation) (v : StateVec) :
    substituteNibblesInv T (substituteNibbles T v) = v := by
  simp [substituteNibblesInv, substituteNibbles, mapNibbles, sboxInvAt_sboxAt hT]

/-- Substitution undoes inverse substitution (R121, R124). -/
theorem substituteNibbles_substituteNibblesInv {T : SBox} (hT : T.IsPermutation) (v : StateVec) :
    substituteNibbles T (substituteNibblesInv T v) = v := by
  simp [substituteNibblesInv, substituteNibbles, mapNibbles, sboxAt_sboxInvAt hT]

/-- The row shift undoes itself (R152). -/
@[simp] theorem shiftRow_shiftRow (v : StateVec) : shiftRow (shiftRow v) = v := rfl

/-- Key addition undoes itself (R152). -/
@[simp] theorem addRoundKey_addRoundKey (k v : StateVec) : addRoundKey k (addRoundKey k v) = v := by
  simp [addRoundKey]

/-- One column: [[9, 2], [2, 9]] undoes [[1, 4], [4, 1]] (R145, R146). -/
theorem invMix_mix (a b : Nibble) : gmul 9#4 (a ^^^ gmul 4#4 b) ^^^ gmul 2#4 (b ^^^ gmul 4#4 a) = a := by
  revert a b
  decide

/-- One column: [[1, 4], [4, 1]] undoes [[9, 2], [2, 9]] (R145, R146). -/
theorem mix_invMix (a b : Nibble) :
    gmul 9#4 a ^^^ gmul 2#4 b ^^^ gmul 4#4 (gmul 9#4 b ^^^ gmul 2#4 a) = a := by
  revert a b
  decide

/-- Inverse column mixing undoes column mixing (R152). -/
@[simp] theorem inverseMixColumns_mixColumns (v : StateVec) : inverseMixColumns (mixColumns v) = v := by
  obtain ⟨a, b, c, d⟩ := v
  simp only [inverseMixColumns, mixColumns, invMix_mix, BitVec.xor_comm (gmul 2#4 _) (gmul 9#4 _)]

/-- Column mixing undoes inverse column mixing (R152). -/
@[simp] theorem mixColumns_inverseMixColumns (v : StateVec) : mixColumns (inverseMixColumns v) = v := by
  obtain ⟨a, b, c, d⟩ := v
  simp only [inverseMixColumns, mixColumns, mix_invMix, BitVec.xor_comm (gmul 2#4 _) (gmul 9#4 _)]

/-- Decryption undoes encryption: each step of R186 undoes the matching step of R183, last first (R188). -/
theorem decrypt_encrypt {T : SBox} (hT : T.IsPermutation) (w : KeyStore) (x : Block) :
    decrypt T (encrypt T x w) w = x := by
  simp [decrypt, encrypt, substituteNibblesInv_substituteNibbles hT]

/-- Encryption undoes decryption, likewise (R188). -/
theorem encrypt_decrypt {T : SBox} (hT : T.IsPermutation) (w : KeyStore) (x : Block) :
    encrypt T (decrypt T x w) w = x := by
  simp [decrypt, encrypt, substituteNibbles_substituteNibblesInv hT]

/-- Settles O46: the completions of ENC and DEC are the cipher's two functions, over the same table and store. -/
theorem decCompletionUndoesEncCompletion : Obligations.DecCompletionUndoesEncCompletion := by
  unfold Obligations.DecCompletionUndoesEncCompletion
  intro s u a b k b' k' i j hij hT hsbox hp hw
  refine ⟨completion i ⟨i, a, b, k⟩ s, act_complete hp, fun hu => ⟨_, act_complete hu, ?_⟩⟩
  rcases hij with ⟨rfl, rfl⟩ | ⟨rfl, rfl⟩
  · simp [completion, hsbox, hw, decrypt_encrypt hT]
  · simp [completion, hsbox, hw, encrypt_decrypt hT]

end Sys2Proof.Machine
end

section
/-! O52, O57 (20_memory.md R66 to R68, 70_reset_and_hazards.md R231, R250, R251): the cycle level against the transaction level, and reset cycles. -/

namespace Sys2Proof.Machine

/-- A reset cycle leaves the CORE as reset leaves it, whether a transaction is presented or not (R231). -/
theorem architectural_resetCycle (q : Ports) (s : State) :
    architectural (resetCycle q s) = architectural (State.resetWith s.sbox) := by
  unfold resetCycle
  split <;> rfl

/-- A cycle with `rst` = 1 is a reset cycle. -/
theorem cycle_reset (L : Latency) {q : Ports} (h : q.rst = true) (s : State) : cycle L q s = .next (resetCycle q s) := by
  simp [cycle, h]

/-- Settles O57: a reset cycle leaves the reset values beside the same table, so another one leaves them again. -/
theorem resetCycleAnswersError : Obligations.ResetCycleAnswersError := by
  unfold Obligations.ResetCycleAnswersError
  intro L q s hq
  refine ⟨resetCycle q s, cycle_reset L hq s, architectural_resetCycle q s, fun hreq => ?_, fun q' hq' => ?_⟩
  · simp [resetCycle, hreq, portsOut]
  · have hsbox : (resetCycle q s).sbox = s.sbox := cycle_sbox (cycle_reset L hq s)
    refine ⟨_, cycle_reset L hq' _, ?_⟩
    rw [architectural_resetCycle, architectural_resetCycle, hsbox]

/-- No write computes from the orchestrator's registers (R39) or from the steps to come (log 1). -/
theorem unread_orch_inputs (o : Orch) (es : List Input) : Unread fun s => { s with orch := o, inputs := es } where
  pend _ := rfl
  cause i _ := rejectionCause_congr i rfl rfl rfl
  okay _ _ := rfl
  busError _ := rfl
  reject _ _ _ := rfl
  setKey _ _ := rfl
  setDinA _ _ := rfl
  setDinB _ _ := rfl

/-- Neither the orchestrator's registers nor the steps to come are in any register's word. -/
theorem readWord_withOrch_withInputs (r : Reg) (o : Orch) (es : List Input) (s : State) :
    readWord r { s with orch := o, inputs := es } = readWord r s := by
  cases r <;> rfl

/-- A step reads the architectural state alone, as far as what it leaves there: the orchestrator's registers and the steps to come go unread (R39), and every transaction writes over the response. -/
theorem act_architectural (e : Input) (s : State) :
    ∃ t t', act e s = .next t ∧ act e (architectural s) = .next t' ∧ architectural t' = architectural t := by
  cases e with
  | host r =>
    have hresp : act (.host r) (architectural s) = act (.host r) { s with orch := Orch.idle, inputs := [] } :=
      transaction_withResp { s with orch := Orch.idle, inputs := [] } none r
    obtain ⟨t, ht, ht' | ⟨i, rfl, ht'⟩⟩ :=
      (unread_orch_inputs Orch.idle []).follows_transaction (r := r) fun reg _ => readWord_withOrch_withInputs reg _ _ s
    · exact ⟨t, _, ht, hresp.trans ht', rfl⟩
    · exact ⟨_, _, ht, hresp.trans ht', rfl⟩
  | complete =>
    rcases Option.eq_none_or_eq_some s.pend with hp | ⟨p, hp⟩
    · exact ⟨s, _, completeStep_idle hp, completeStep_idle hp, rfl⟩
    · refine ⟨_, _, act_complete hp, act_complete (s := architectural s) hp, ?_⟩
      cases p.op <;> rfl
  | reset => exact ⟨_, _, rfl, rfl, rfl⟩

/-- Two states with the same architectural part are left with the same architectural part by the same steps. -/
theorem act_congr (e : Input) {s s' : State} (h : architectural s' = architectural s) :
    ∃ t t', act e s = .next t ∧ act e s' = .next t' ∧ architectural t' = architectural t := by
  obtain ⟨t, u, ht, hu, htu⟩ := act_architectural e s
  obtain ⟨t', u', ht', hu', htu'⟩ := act_architectural e s'
  obtain rfl : u = u' := by simpa [h, hu] using hu'
  exact ⟨t, t', ht, ht', htu'.symm.trans htu⟩

/-- Steps in order keep states with the same architectural part alike. -/
theorem actAll_congr (es : List Input) {s s' : State} (h : architectural s' = architectural s) :
    ∃ t t', actAll es s = .next t ∧ actAll es s' = .next t' ∧ architectural t' = architectural t := by
  induction es generalizing s s' with
  | nil => exact ⟨s, s', rfl, rfl, h⟩
  | cons e es ih =>
    obtain ⟨t, t', ht, ht', htt⟩ := act_congr e h
    obtain ⟨u, u', hu, hu', huu⟩ := ih htt
    exact ⟨u, u', by simpa only [actAll, ht] using hu, by simpa only [actAll, ht'] using hu', huu⟩

/-- Steps in order, then more steps. -/
theorem actAll_append {es : List Input} {s t : State} (h : actAll es s = .next t) (fs : List Input) :
    actAll (es ++ fs) s = actAll fs t := by
  induction es generalizing s with
  | nil =>
    obtain rfl : s = t := Host.Outcome.next.inj h
    rfl
  | cons e es ih =>
    obtain ⟨u, hu, -⟩ := act_moves e s
    simp only [actAll, hu] at h
    simp only [List.cons_append, actAll, hu, ih h]

/-- The completion edge, from the registers that the edges before it have left, is the command's completion (R181). -/
theorem orchComplete_eq_completion {L : Latency} {s : State} {p : Pending} (h : CycleInv L s) (hp : s.pend = some p) :
    orchComplete s = completion p.op p s := by
  obtain ⟨horch, -⟩ := h.inFlight p hp
  simp only [orchComplete, hp]
  rw [horch, orchRk1_orchAfter, orchFinish_orchAfter, orchFinish_orchStart]
  cases hop : p.op with
  | keyexp => simp [completion, storeOf_expand]
  | _ => simp [completion, unitResult, hop]

/-- The host's part of a cycle with `req` = 1 is its transaction (R67). -/
theorem hostPart_request {q : Ports} (hreq : q.req = true) (s : State) : hostPart q s = act (.host q.request) s := by
  simp [hostPart, hreq, act]

/-- A cycle without reset is the host's part and then the engine's (R67). -/
theorem cycle_of_hostPart (L : Latency) {q : Ports} {s u : State} (hrst : q.rst = false) (h : hostPart q s = .next u) :
    cycle L q s = .next (afterTransaction L s.busy u) := by
  simp [cycle, hrst, h]

/-- With a command in flight, the host's part of a cycle changes the response alone (R207). -/
theorem hostPart_inFlight {q : Ports} {s u : State} (hs : s.pend ≠ none) (h : hostPart q s = .next u) :
    ∃ r, u = { s with resp := r } := by
  obtain ⟨v, hv, hcases⟩ := hostPart_cases q s
  obtain rfl : v = u := by simpa [hv] using h
  rcases hcases with rfl | m
  · exact ⟨none, rfl⟩
  · exact m.stays_inFlight hs fun hp => by simpa using m.ends hs hp

/-- The host's part of a cycle is its transaction, if there is one, but for the response. -/
theorem hostPart_refines (q : Ports) (s : State) :
    ∃ u u', hostPart q s = .next u ∧ actAll (if q.req then [.host q.request] else []) s = .next u' ∧
      architectural u = architectural u' := by
  cases hreq : q.req with
  | false => exact ⟨{ s with resp := none }, s, by simp [hostPart, hreq], rfl, rfl⟩
  | true =>
    obtain ⟨u, hu, -⟩ := act_moves (.host q.request) s
    exact ⟨u, u, (hostPart_request hreq s).trans hu, by simp [actAll, hu], rfl⟩

/-- The edge L after a command's acceptance is the completion edge (R250). -/
theorem engineEdge_completes {L : Latency} {s : State} {p : Pending} (hp : s.pend = some p)
    (hlast : latencyOf L p.op ≤ s.orch.cycles + 1) : engineEdge L s = orchComplete s := by
  simp [engineEdge, hp, hlast]

/-- An edge before it moves the orchestrator's registers alone (R181, R250). -/
theorem engineEdge_advances {L : Latency} {s : State} {p : Pending} (hp : s.pend = some p)
    (hlast : ¬latencyOf L p.op ≤ s.orch.cycles + 1) :
    engineEdge L s = { s with orch := orchAdvance s.sbox p s.w s.orch } := by
  simp [engineEdge, hp, hlast]

/-- A clock edge is the completion step if it completes the command in flight, and otherwise moves the orchestrator's registers alone. -/
theorem engineEdge_refines {L : Latency} {s : State} (h : CycleInv L s) :
    ∃ t, actAll (if completesAt L s then [.complete] else []) s = .next t ∧
      architectural (engineEdge L s) = architectural t := by
  rcases Option.eq_none_or_eq_some s.pend with hp | ⟨p, hp⟩
  · exact ⟨s, by simp [completesAt, hp, actAll], by simp [engineEdge, hp]⟩
  · by_cases hlast : latencyOf L p.op ≤ s.orch.cycles + 1
    · refine ⟨completion p.op p s, by simp [completesAt, hp, hlast, actAll, act_complete hp], ?_⟩
      rw [engineEdge_completes hp hlast, orchComplete_eq_completion h hp]
    · refine ⟨s, by simp [completesAt, hp, hlast, actAll], ?_⟩
      rw [engineEdge_advances hp hlast]
      rfl

/-- The engine's part of a cycle is the completion step, if it is due, but for the orchestrator's registers. -/
theorem afterTransaction_refines {L : Latency} {q : Ports} {s u : State} (h : CycleInv L s)
    (hu : hostPart q s = .next u) :
    ∃ t, actAll (if completesAt L s then [.complete] else []) u = .next t ∧
      architectural (afterTransaction L s.busy u) = architectural t := by
  by_cases hs : s.pend = none
  · exact ⟨u, by simp [completesAt, hs, actAll], by simp [afterTransaction, State.busy, hs]⟩
  · have hbusy : s.busy = true := by simpa [State.busy, Option.isSome_iff_ne_none] using hs
    obtain ⟨r, rfl⟩ := hostPart_inFlight hs hu
    rw [afterTransaction, if_pos hbusy]
    exact engineEdge_refines (h.with_resp r)

/-- A cycle is the steps it stands for, but for the response and the orchestrator's registers (R68). -/
theorem cycle_refines {L : Latency} {s : State} (h : CycleInv L s) (q : Ports) :
    ∃ t t', cycle L q s = .next t ∧ actAll (cycleInputs L q s) s = .next t' ∧ architectural t = architectural t' := by
  cases hrst : q.rst with
  | true =>
    exact ⟨_, resetStep s, cycle_reset L hrst s, by simp [cycleInputs, hrst, actAll, act],
      architectural_resetCycle q s⟩
  | false =>
    obtain ⟨u, u', hu, hu', huu⟩ := hostPart_refines q s
    obtain ⟨v, hv, htv⟩ := afterTransaction_refines h hu
    obtain ⟨w, t', hw, ht', hwt⟩ := actAll_congr (if completesAt L s then [.complete] else []) huu.symm
    obtain rfl : v = w := by simpa [hv] using hw
    refine ⟨_, t', cycle_of_hostPart L hrst hu, ?_, htv.trans hwt.symm⟩
    simpa only [cycleInputs, hrst, Bool.false_eq_true, if_false, actAll_append hu'] using ht'

/-- A run of cycles is the steps it stands for (R68). -/
theorem cycles_refine {L : Latency} (hL : latencyWf L = true) (qs : List Ports) {s : State} (h : CycleInv L s) :
    ∃ t t', cycles L qs s = .next t ∧ actAll (runInputs L qs s) s = .next t' ∧ architectural t = architectural t' := by
  induction qs generalizing s with
  | nil => exact ⟨s, s, rfl, rfl, rfl⟩
  | cons q qs ih =>
    obtain ⟨t, t', ht, ht', htt⟩ := cycle_refines h q
    obtain ⟨u, u', hu, hu', huu⟩ := ih (cycleInvariantIsKept L q s t hL h ht)
    obtain ⟨v, v', hv, hv', hvv⟩ := actAll_congr (runInputs L qs t) htt.symm
    obtain rfl : u' = v := by simpa [hu'] using hv
    refine ⟨u, v', by simpa only [cycles, ht] using hu, ?_, huu.trans hvv.symm⟩
    simpa only [runInputs, ht, actAll_append ht'] using hv'

/-- The completion edge leaves the response. -/
@[simp] theorem orchComplete_resp (s : State) : (orchComplete s).resp = s.resp := by
  unfold orchComplete
  split
  · rfl
  · split <;> rfl

/-- A clock edge of the engine leaves the response. -/
@[simp] theorem engineEdge_resp (L : Latency) (s : State) : (engineEdge L s).resp = s.resp := by
  unfold engineEdge
  split
  · rfl
  · split
    · exact orchComplete_resp s
    · rfl

/-- The engine's part of a cycle leaves the response to its transaction. -/
@[simp] theorem afterTransaction_resp (L : Latency) (wasBusy : Bool) (s : State) :
    (afterTransaction L wasBusy s).resp = s.resp := by
  cases wasBusy with
  | false => rfl
  | true => exact engineEdge_resp L s

/-- Settles O52: cycle by cycle, the host's part is the transaction and the edge that completes a command is the completion step; the engine's part leaves the response. -/
theorem cyclesRefineTransactions : Obligations.CyclesRefineTransactions := by
  unfold Obligations.CyclesRefineTransactions
  refine ⟨fun L qs s hL h => cycles_refine hL qs h, fun L q s _ _ hrst hreq => ?_⟩
  obtain ⟨u, hu, -⟩ := act_moves (.host q.request) s
  exact ⟨_, u, cycle_of_hostPart L hrst ((hostPart_request hreq s).trans hu), hu, afterTransaction_resp ..⟩

end Sys2Proof.Machine
end

section
/-! O47 to O50 (30_encoding.md R71 to R74, R76): command words and request vectors, decoded and encoded back. -/

namespace Sys2Proof.Machine

open PseudoCode

/-! ### Command words (R72 to R76) -/

/-- The word of a command decodes to it (R74). -/
@[simp] theorem decodeCommand_encode (i : Instr) : decodeCommand (encode i) = .command i := by
  cases i <;> decide

/-- The word of a command is the one word that decodes to it (R73, R74). -/
theorem decodeCommand_eq_command_iff (v : BusWord) (i : Instr) : decodeCommand v = .command i ↔ v = encode i := by
  constructor
  · exact eq_encode_of_decodeCommand
  · rintro rfl
    exact decodeCommand_encode i

/-- A word that decodes to a reserved opcode has its reserved bits zero (R73). -/
theorem reservedBits_of_decodeCommand {v : BusWord} {op : BitVec 4} (h : decodeCommand v = .reservedOp op) :
    v.extractLsb' 4 28 = 0#28 := by
  by_contra hv
  rw [(decodeCommand_eq_illegalWord_iff v).mpr hv] at h
  cases h

/-- The words of a reserved OP are the reserved opcodes, zero-extended (R73, R76). -/
theorem decodeCommand_eq_reservedOp_iff (v : BusWord) (op : BitVec 4) :
    decodeCommand v = .reservedOp op ↔
      v = op.setWidth 32 ∧ (op = 0x0#4 ∨ op = 0xC#4 ∨ op = 0xD#4 ∨ op = 0xE#4 ∨ op = 0xF#4) := by
  constructor
  · intro h
    have hword : v = op.setWidth 32 := by
      rw [op_of_decodeCommand h]
      exact eq_setWidth_opField (reservedBits_of_decodeCommand h)
    rw [hword, decodeCommand_setWidth] at h
    refine ⟨hword, (commandOf_eq_none_iff op).mp ?_⟩
    cases hc : commandOf op with
    | none => rfl
    | some i => simp [hc] at h
  · rintro ⟨rfl, hop⟩
    rw [decodeCommand_setWidth, (commandOf_eq_none_iff op).mpr hop]
    rfl

/-- Settles O47: a word with a reserved bit set is illegal, and any other is its OP field, zero-extended, which is a command's opcode or a reserved one. -/
theorem commandWordsAreClassified : Obligations.CommandWordsAreClassified := by
  unfold Obligations.CommandWordsAreClassified
  exact fun v => ⟨decodeCommand_eq_illegalWord_iff v, decodeCommand_eq_reservedOp_iff v, decodeCommand_eq_command_iff v⟩

/-! ### The opcode table (R74) -/

/-- A row of the opcode table is its command's word under the full mask (R74). -/
theorem eq_of_mem_opcodeTable {r : OpcodeRow} (hr : r ∈ opcodeTable) :
    r = ⟨BitVec.allOnes 32, encode r.instr, r.instr⟩ := by
  revert r
  decide

/-- A row selects the word of its command and no other (R74). -/
theorem selects_iff {r : OpcodeRow} (hr : r ∈ opcodeTable) (v : BusWord) :
    r.selects v = true ↔ v = encode r.instr := by
  rw [eq_of_mem_opcodeTable hr, OpcodeRow.selects, BitVec.and_allOnes, beq_iff_eq]

/-- No two commands have the same word. -/
theorem encode_injective : Function.Injective encode := fun i j h =>
  Decoded.command.inj (by rw [← decodeCommand_encode i, h, decodeCommand_encode])

/-- Settles O49: the word is the word of both rows' commands, so the commands are the same, and a row is determined by its command. -/
theorem opcodeRowsNeverOverlap : Obligations.OpcodeRowsNeverOverlap := by
  unfold Obligations.OpcodeRowsNeverOverlap
  intro v r r' hr hr' hs hs'
  have hword : encode r.instr = encode r'.instr := ((selects_iff hr v).mp hs).symm.trans ((selects_iff hr' v).mp hs')
  rw [eq_of_mem_opcodeTable hr, eq_of_mem_opcodeTable hr', encode_injective hword]

/-- A row's match value decodes to the row's command (R74). -/
theorem decodeCommand_pattern {r : OpcodeRow} (hr : r ∈ opcodeTable) : decodeCommand r.pattern = .command r.instr := by
  rw [eq_of_mem_opcodeTable hr, decodeCommand_encode]

/-- A command's word, taken as a number, is the table word of the command (R59, R74). -/
theorem decodeTableWord_toNat {v : BusWord} {i : Instr} (h : decodeCommand v = .command i) :
    decodeTableWord 32 v.toNat = some i := by
  simp [decodeTableWord, h, v.isLt, Nat.mod_eq_of_lt]

/-- Settles O48: the eleven words are the match values of the table's rows; the reserved words and the illegal one are by the classification of command words. -/
theorem tableWordsDecode : Obligations.TableWordsDecode := by
  unfold Obligations.TableWordsDecode
  refine ⟨?_, ?_, ?_, ?_⟩
  · change (opcodeTable.map OpcodeRow.pattern).map decodeCommand = opcodeTable.map (.command ·.instr)
    rw [List.map_map]
    exact List.map_congr_left fun r hr => decodeCommand_pattern hr
  · change (opcodeTable.map (·.pattern.toNat)).map (decodeTableWord 32) = opcodeTable.map (some ·.instr)
    rw [List.map_map]
    exact List.map_congr_left fun r hr => decodeTableWord_toNat (decodeCommand_pattern hr)
  · change ([0x0#4, 0xC#4, 0xD#4, 0xE#4, 0xF#4].map (·.setWidth 32)).map decodeCommand =
      [0x0#4, 0xC#4, 0xD#4, 0xE#4, 0xF#4].map .reservedOp
    rw [List.map_map]
    exact List.map_congr_left fun op hop => (decodeCommand_eq_reservedOp_iff _ op).mpr ⟨rfl, by simpa using hop⟩
  · exact (decodeCommand_eq_illegalWord_iff _).mpr (by decide)

/-! ### Request vectors (R71) -/

section RequestVectors
variable (we : Bool) (off : Offset) (v : BusWord) (q : RequestVector)

/-- The request vector of the ports `we`, `addr` and `wdata`: their bits, one after another (R71). -/
def vectorOfPorts : RequestVector := BitVec.ofBool we ++ off ++ v

/-- Bit 38 of a request vector is `we`. -/
theorem vectorOfPorts_we : (vectorOfPorts we off v).getLsbD 38 = we := by
  simp only [vectorOfPorts, BitVec.getLsbD_append]
  simp

/-- Bits [37:32] are `addr`. -/
theorem vectorOfPorts_addr : (vectorOfPorts we off v).extractLsb' 32 6 = off := by
  rw [vectorOfPorts, BitVec.extractLsb'_append_eq_of_le (by decide), Nat.sub_self,
    BitVec.extractLsb'_append_eq_right]

/-- Bits [31:0] are `wdata`. -/
theorem vectorOfPorts_wdata : (vectorOfPorts we off v).extractLsb' 0 32 = v :=
  BitVec.extractLsb'_append_eq_right

/-- Every request vector is its three fields, one after another. -/
theorem vectorOfPorts_fields : vectorOfPorts (q.getLsbD 38) (q.extractLsb' 32 6) (q.extractLsb' 0 32) = q := by
  have hwe : BitVec.ofBool (q.getLsbD 38) = q.extractLsb' 38 1 := by
    ext i hi
    obtain rfl : i = 0 := by omega
    simp
  have hhigh : q.extractLsb' 38 1 ++ q.extractLsb' 32 6 = q.extractLsb' 32 7 :=
    BitVec.extractLsb'_append_extractLsb'_eq_extractLsb' rfl
  rw [vectorOfPorts, hwe, hhigh]
  exact BitVec.extractLsb'_append_extractLsb'

/-- A request vector decodes to the request on its ports. -/
theorem decodeRequest_vectorOfPorts : decodeRequest (vectorOfPorts we off v) = requestOfPorts we off v := by
  rw [decodeRequest, vectorOfPorts_we, vectorOfPorts_addr, vectorOfPorts_wdata]

/-- A read's vector is `we` = 0 and no data. -/
theorem encodeRequest_read : encodeRequest (.read off) = vectorOfPorts false off 0#32 := rfl

/-- A write's vector is `we` = 1 and its word. -/
theorem encodeRequest_write : encodeRequest (.write off v) = vectorOfPorts true off v := rfl

end RequestVectors

/-- Every request comes back from its vector. -/
theorem decodeRequest_encodeRequest (r : Request) : decodeRequest (encodeRequest r) = r := by
  cases r with
  | read off => rw [encodeRequest_read, decodeRequest_vectorOfPorts]; rfl
  | write off v => rw [encodeRequest_write, decodeRequest_vectorOfPorts]; rfl

/-- The vector of a request carries no data in a read. -/
theorem requestVectorWf_encodeRequest (r : Request) : requestVectorWf (encodeRequest r) = true := by
  cases r with
  | read off => rw [encodeRequest_read, requestVectorWf, vectorOfPorts_wdata, beq_self_eq_true, Bool.or_true]
  | write off v => rw [encodeRequest_write, requestVectorWf, vectorOfPorts_we, Bool.true_or]

/-- Every vector that carries no data in a read comes back from its request. -/
theorem encodeRequest_decodeRequest {q : RequestVector} (hq : requestVectorWf q = true) :
    encodeRequest (decodeRequest q) = q := by
  have hfields := vectorOfPorts_fields q
  cases hwe : q.getLsbD 38 with
  | true =>
    rw [hwe] at hfields
    rwa [decodeRequest, hwe, requestOfPorts, if_pos rfl, encodeRequest_write]
  | false =>
    have hdata : q.extractLsb' 0 32 = 0#32 := by simpa only [requestVectorWf, hwe, Bool.false_or, beq_iff_eq] using hq
    rw [hwe, hdata] at hfields
    rwa [decodeRequest, hwe, requestOfPorts, if_neg (by decide), encodeRequest_read]

/-- Settles O50: a request's vector is its three ports, one after another, and a vector is read back field by field. -/
theorem requestVectorsRoundTrip : Obligations.RequestVectorsRoundTrip := by
  unfold Obligations.RequestVectorsRoundTrip
  refine ⟨fun r => ⟨decodeRequest_encodeRequest r, requestVectorWf_encodeRequest r⟩,
    fun q hq => encodeRequest_decodeRequest hq, fun off v => ?_, rfl, rfl⟩
  rw [encodeRequest_write, encodeRequest_read]
  exact ⟨vectorOfPorts_we .., vectorOfPorts_we .., vectorOfPorts_addr .., vectorOfPorts_addr ..,
    vectorOfPorts_wdata .., vectorOfPorts_wdata ..⟩

end Sys2Proof.Machine
end

section
/-! SUPPORT. What the statements of the single commands share: a command's issue, rejection and completion as R55's and R56's, and a CTRL write while BUSY = 1. -/

namespace Sys2Proof.Machine

open PseudoCode

/-- With nothing in flight and no cause against it, a command is accepted (R55). -/
theorem exec_accepts {i : Instr} {s : State} (hp : s.pend = none) (hc : rejectionCause i s = none) :
    ∃ o, exec i s = .next { accepted i (opcode i) s with orch := o } :=
  ⟨orchStart (snapshot i s), by rw [exec_idle hp, hc]; rfl⟩

/-- With nothing in flight and a cause against it, a command is rejected with the cause's code (R55, R201). -/
theorem exec_rejects {i : Instr} {c : CmdErrorCause} {s : State} (hp : s.pend = none)
    (hc : rejectionCause i s = some c) : exec i s = .next (rejected (opcode i) (errorCode c) s) := by
  rw [exec_idle hp, hc]
  rfl

/-- A command in flight whose completion produces r writes RESULT, DONE and BUSY (R56). -/
theorem exec_completesWith {s : State} {p : Pending} {r : Block} (hp : s.pend = some p)
    (hr : completion p.op p s = completeResult r s) :
    ∃ o, exec p.op s = .next { completedWith r s with orch := o } :=
  ⟨Orch.idle, by rw [exec_inFlight hp, hr]; rfl⟩

/-- A write at CTRL's offset while BUSY = 1 is a bus error, whatever the word (R207). -/
theorem act_write_ctrl_inFlight (v : BusWord) {s : State} (h : s.pend.isSome) :
    act (.host (.write 0x00#6 v)) s = .next { s with resp := error } := by
  obtain ⟨p, hp⟩ := Option.isSome_iff_exists.mp h
  exact (act_write_ctrl v s).trans (writeCtrl_inFlight v hp)

end Sys2Proof.Machine
end

section
/-! O36, O37, O39 (40_field_arithmetic.md R101 to R103, R106, R107): the multiplier's two forms, its table, its laws, and the constant multipliers. -/

namespace Sys2Proof.Machine

open PseudoCode

/-! ### The two forms and the constant multipliers (R102, R107) -/

/-- The loop of R101 is the sum of partial products, reduced: the spec's check on all 256 pairs (R102). -/
theorem gmul_eq_gmulCombinational (a b : Nibble) : gmul a b = gmulCombinational a b := by
  revert a b
  decide

/-- The multiplier ×2 is row 2 of the product table (R107). -/
theorem times2_eq_gmul (a : Nibble) : times2 a = gmul 2#4 a := by
  revert a
  decide

/-- The multiplier ×4 is row 4 (R107). -/
theorem times4_eq_gmul (a : Nibble) : times4 a = gmul 4#4 a := by
  revert a
  decide

/-- The multiplier ×9 is row 9 (R107). -/
theorem times9_eq_gmul (a : Nibble) : times9 a = gmul 9#4 a := by
  revert a
  decide

/-- Settles O36: each equality holds pair by pair. -/
theorem multiplierFormsAgree : Obligations.MultiplierFormsAgree := by
  unfold Obligations.MultiplierFormsAgree
  exact ⟨gmul_eq_gmulCombinational, fun a => ⟨times2_eq_gmul a, times4_eq_gmul a, times9_eq_gmul a⟩⟩

/-- Settles O37: the tables are evaluated, and the bit equations of R107 define the constant multipliers, which are rows of `gmul`. -/
theorem multiplierTables : Obligations.MultiplierTables := by
  unfold Obligations.MultiplierTables
  refine ⟨by decide, by decide, by decide, by decide, fun a => ?_, fun a => ?_, fun a => ?_⟩
  · exact (times2_eq_gmul a).symm
  · exact (times4_eq_gmul a).symm
  · exact (times9_eq_gmul a).symm

/-! ### The laws (R103) -/

/-- The partial products are symmetric in the factors (R102). -/
theorem partialProduct_comm (a b : Nibble) {k : Nat} (hk : k ≤ 6) : partialProduct a b k = partialProduct b a k := by
  interval_cases k <;> simp [partialProduct, Bool.and_comm, Bool.xor_comm]

/-- `gmul` is commutative, because the combinational form is symmetric in its factors. -/
theorem gmul_comm (a b : Nibble) : gmul a b = gmul b a := by
  simp [gmul_eq_gmulCombinational, gmulCombinational, partialProduct_comm a b]

/-- Zero annihilates on the right. -/
@[simp] theorem gmul_zero (a : Nibble) : gmul a 0#4 = 0#4 := by
  revert a
  decide

/-- One is neutral on the right. -/
@[simp] theorem gmul_one (a : Nibble) : gmul a 1#4 = a := by
  revert a
  decide

/-- Zero annihilates on the left. -/
@[simp] theorem zero_gmul (a : Nibble) : gmul 0#4 a = 0#4 := by
  rw [gmul_comm, gmul_zero]

/-- One is neutral on the left. -/
@[simp] theorem one_gmul (a : Nibble) : gmul 1#4 a = a := by
  rw [gmul_comm, gmul_one]

/-- A round is additive in the bits of b and in the accumulator, and its working copy t depends on neither (R101). -/
theorem gmulRound_xor (b c p q : Nibble) (t : BitVec 5) (i : Nat) : gmulRound (b ^^^ c) (p ^^^ q, t) i =
    ((gmulRound b (p, t) i).1 ^^^ (gmulRound c (q, t) i).1, (gmulRound b (p, t) i).2) := by
  refine Prod.ext ?_ rfl
  have htwice (x : Nibble) : p ^^^ q = p ^^^ x ^^^ (q ^^^ x) := by
    rw [BitVec.xor_comm q x, BitVec.xor_assoc, ← BitVec.xor_assoc x, BitVec.xor_self, BitVec.zero_xor]
  cases hb : b.getLsbD i <;> cases hc : c.getLsbD i <;>
    simp only [gmulRound, BitVec.getLsbD_xor, hb, hc, bne_self_eq_false, Bool.xor_false, Bool.false_xor, Bool.false_eq_true,
      if_true, if_false]
  · exact BitVec.xor_assoc ..
  · ac_rfl
  · exact htwice _

/-- R101's loop is additive, round by round. -/
theorem foldl_gmulRound_xor (l : List Nat) (b c p q : Nibble) (t : BitVec 5) :
    (l.foldl (gmulRound (b ^^^ c)) (p ^^^ q, t)).1 =
      (l.foldl (gmulRound b) (p, t)).1 ^^^ (l.foldl (gmulRound c) (q, t)).1 := by
  induction l generalizing p q t with
  | nil => rfl
  | cons i l ih =>
    simp only [List.foldl_cons, gmulRound_xor]
    exact ih _ _ _

/-- `gmul` distributes over xor: R101's loop is additive. -/
theorem gmul_xor (a b c : Nibble) : gmul a (b ^^^ c) = gmul a b ^^^ gmul a c :=
  foldl_gmulRound_xor [0, 1, 2, 3] b c 0#4 0#4 (a.setWidth 5)

/-- A nibble is the sum of its bits. -/
theorem nibble_eq_sum_bits (x : Nibble) : x = (bif x.getLsbD 0 then 1#4 else 0#4) ^^^ (bif x.getLsbD 1 then 2#4 else 0#4) ^^^
    (bif x.getLsbD 2 then 4#4 else 0#4) ^^^ (bif x.getLsbD 3 then 8#4 else 0#4) := by
  revert x
  decide

/-- What holds of 1, 2, 4 and 8 and is kept by xor holds of every nibble. -/
theorem nibble_xor_induction {P : Nibble → Prop} (one : P 1#4) (two : P 2#4) (four : P 4#4) (eight : P 8#4)
    (xor : ∀ x y, P x → P y → P (x ^^^ y)) (x : Nibble) : P x := by
  have hbit {n : Nibble} (hn : P n) (b : Bool) : P (bif b then n else 0#4) := by
    cases b with
    | true => exact hn
    | false => exact xor 1#4 1#4 one one
  rw [nibble_eq_sum_bits x]
  exact xor _ _ (xor _ _ (xor _ _ (hbit one _) (hbit two _)) (hbit four _)) (hbit eight _)

/-- `gmul` is associative: both sides are additive in c, so c = 1, 2, 4 and 8 are enough. -/
theorem gmul_assoc (a b c : Nibble) : gmul (gmul a b) c = gmul a (gmul b c) := by
  induction c using nibble_xor_induction with
  | one => rw [gmul_one, gmul_one]
  | two => revert a b; decide
  | four => revert a b; decide
  | eight => revert a b; decide
  | xor x y hx hy => simp only [gmul_xor, hx, hy]

/-- Every nonzero nibble has an inverse. -/
theorem exists_gmul_eq_one (a : Nibble) (ha : a ≠ 0#4) : ∃ b, gmul a b = 1#4 := by
  revert a
  decide

/-- A nibble has at most one inverse, as in every commutative monoid. -/
theorem eq_of_gmul_eq_one {a b c : Nibble} (hb : gmul a b = 1#4) (hc : gmul a c = 1#4) : c = b := by
  calc c = gmul (gmul a b) c := by rw [hb, one_gmul]
    _ = gmul b (gmul a c) := by rw [gmul_comm a b, gmul_assoc]
    _ = b := by rw [hc, gmul_one]

/-- Settles O39: the laws are those of the loop and of the combinational form; an inverse is unique by associativity. -/
theorem multiplierLaws : Obligations.MultiplierLaws := by
  unfold Obligations.MultiplierLaws
  refine ⟨gmul_comm, fun a => ⟨gmul_zero a, gmul_one a⟩, gmul_assoc, gmul_xor, fun a ha => ?_, by decide⟩
  obtain ⟨b, hb⟩ := exists_gmul_eq_one a ha
  exact ⟨b, hb, fun c hc => eq_of_gmul_eq_one hb hc⟩

end Sys2Proof.Machine
end

section
/-! O1 (40_field_arithmetic.md R105): the command GFMUL. -/

namespace Sys2Proof.Machine

open PseudoCode

/-- RANGE is GFMUL's cause exactly when an operand is no nibble (R55, R202). -/
theorem nibbleRangeCause_eq_range_iff (s : State) :
    nibbleRangeCause s = some .range ↔ s.dinA.extractLsb' 4 12 ≠ 0#12 ∨ s.dinB.extractLsb' 4 12 ≠ 0#12 := by
  simp [nibbleRangeCause, notNibbles, imp_iff_not_or]

/-- A zero-extended nibble has nothing above bit 3 (R75). -/
theorem zextNibble_high (n : Nibble) : (zextNibble n).extractLsb' 4 12 = 0#12 := by
  revert n
  decide

/-- Settles O1: the issue is by GFMUL's range condition, the completion is `gfmulResult`, and the corner cases are laws of `gmul`. -/
theorem gfmulIssuesChecksAndCompletes : Obligations.GfmulIssuesChecksAndCompletes := by
  unfold Obligations.GfmulIssuesChecksAndCompletes
  refine ⟨rfl, fun s hp ha hb => ?_, fun s hp h => ?_, fun s a b k hp => exec_completesWith hp rfl,
    fun s => act_write_ctrl_inFlight _, fun a b => zextNibble_high (gmul a b),
    fun a => ⟨zero_gmul a, gmul_zero a, one_gmul a, gmul_one a⟩, rfl⟩
  · exact exec_accepts hp ((nibbleRangeCause_eq_none_iff s).mpr ⟨ha, hb⟩)
  · exact exec_rejects (i := .gfmul) (c := .range) hp ((nibbleRangeCause_eq_range_iff s).mpr h)

end Sys2Proof.Machine
end

section
/-! O2, O3, O38, O40 (41_substitution.md R120 to R126): the substitution tables, and the commands SUB and ISUB. -/

namespace Sys2Proof.Machine

open PseudoCode

/-! ### The tables (R120 to R122) -/

/-- Settles O38: both tables are read off at the sixteen nibbles, and 0 is not mapped back to itself by two substitutions. -/
theorem substitutionTables : Obligations.SubstitutionTables := by
  unfold Obligations.SubstitutionTables
  exact ⟨by decide, by decide, by decide, rfl⟩

/-- A permutation maps x to y exactly when its inverse table maps y to x (R121). -/
theorem sboxAt_eq_iff {T : SBox} (hT : T.IsPermutation) (x y : Nibble) : sboxAt T x = y ↔ x = sboxInvAt T y := by
  constructor
  · rintro rfl
    exact (sboxInvAt_sboxAt hT x).symm
  · rintro rfl
    exact sboxAt_sboxInvAt hT y

/-- A permutation is accepted as a table (R121). -/
theorem ofList?_of_isPermutation {l : List Nibble} (hl : SBox.IsPermutation ⟨l⟩) : SBox.ofList? l = some ⟨l⟩ :=
  if_pos hl

/-- A list that is no permutation is refused as a table (R121). -/
theorem ofList?_of_not_isPermutation {l : List Nibble} (hl : ¬ SBox.IsPermutation ⟨l⟩) : SBox.ofList? l = none :=
  if_neg hl

/-- Settles O40: the inverse table's laws for every permutation, and a CORE is built from what `SBox.ofList?` accepts. -/
theorem inverseTableInvertsEveryPermutation : Obligations.InverseTableInvertsEveryPermutation := by
  unfold Obligations.InverseTableInvertsEveryPermutation
  refine ⟨fun T hT x => ⟨sboxInvAt_sboxAt hT x, sboxAt_sboxInvAt hT x⟩, fun T hT => sboxAt_eq_iff hT, by decide,
    fun l hl => ?_, fun l hl => ⟨ofList?_of_not_isPermutation hl, ?_⟩⟩
  · rw [State.configured?, ofList?_of_isPermutation hl, Option.map_some]
  · rw [State.configured?, ofList?_of_not_isPermutation hl, Option.map_none]

/-! ### Substitution of a block (R124) -/

/-- A table applied to the elements of a block's state vector is the table applied to the block's nibbles (R124). -/
theorem vecToInt_mapNibbles (f : Nibble → Nibble) (x : Block) : vecToInt (mapNibbles f (intToVec x)) = mapBlock f x :=
  rfl

/-- A table that undoes another nibble by nibble undoes it on blocks. -/
theorem leftInverse_mapBlock {f g : Nibble → Nibble} (h : Function.LeftInverse f g) :
    Function.LeftInverse (mapBlock f) (mapBlock g) := by
  intro x
  simp [mapBlock, h _]

/-- Inverse substitution undoes substitution, on blocks (R121, R124). -/
theorem subBlockInv_subBlock {T : SBox} (hT : T.IsPermutation) (x : Block) : subBlockInv T (subBlock T x) = x :=
  leftInverse_mapBlock (sboxInvAt_sboxAt hT) x

/-- Substitution undoes inverse substitution, on blocks (R121, R124). -/
theorem subBlock_subBlockInv {T : SBox} (hT : T.IsPermutation) (x : Block) : subBlock T (subBlockInv T x) = x :=
  leftInverse_mapBlock (sboxAt_sboxInvAt hT) x

/-! ### SUB and ISUB (R125, R126) -/

/-- Settles O2: nothing rejects SUB, its completion is the table applied to the block's state vector, and the inverse table undoes it. -/
theorem subIssuesAndCompletes : Obligations.SubIssuesAndCompletes := by
  unfold Obligations.SubIssuesAndCompletes
  refine ⟨rfl, fun s hp => exec_accepts hp rfl, fun s a b k hp => ?_, fun s => act_write_ctrl_inFlight _, by decide,
    by decide, fun T hT => subBlockInv_subBlock hT, by decide⟩
  have hform : vecToInt (substituteNibbles s.sbox (intToVec a)) = subBlock s.sbox a := vecToInt_mapNibbles _ a
  obtain ⟨o, ho⟩ := exec_completesWith hp (congrArg (completeResult · s) hform)
  exact ⟨o, ho, hform.symm⟩

/-- Settles O3: as SUB, with the inverse table. -/
theorem isubIssuesAndCompletes : Obligations.IsubIssuesAndCompletes := by
  unfold Obligations.IsubIssuesAndCompletes
  refine ⟨rfl, fun s hp => exec_accepts hp rfl, fun s a b k hp => ?_, fun s => act_write_ctrl_inFlight _, by decide,
    fun T hT => subBlock_subBlockInv hT, by decide, by decide⟩
  have hform : vecToInt (substituteNibblesInv s.sbox (intToVec a)) = subBlockInv s.sbox a := vecToInt_mapNibbles _ a
  obtain ⟨o, ho⟩ := exec_completesWith hp (congrArg (completeResult · s) hform)
  exact ⟨o, ho, hform.symm⟩

end Sys2Proof.Machine
end

section
/-! O8, O9 (43_key_schedule.md R160 to R166): the commands ROTSUB and KEYEXP. -/

namespace Sys2Proof.Machine

open PseudoCode

/-- RANGE is ROTSUB's cause exactly when the operand is no byte (R55, R202). -/
theorem byteRangeCause_eq_range_iff (s : State) : byteRangeCause s = some .range ↔ s.dinA.extractLsb' 8 8 ≠ 0#8 := by
  simp [byteRangeCause, notByte]

/-- A zero-extended byte has nothing above bit 7 (R75). -/
theorem zextByte_high (b : Byte) : (zextByte b).extractLsb' 8 8 = 0#8 := by
  refine BitVec.eq_of_getLsbD_eq fun i hi => ?_
  simp [zextByte]

/-- The low nibble of a block's low byte is N3 (R8). -/
theorem loNibble_loByte (x : Block) : loNibble (loByte x) = nib3 x :=
  BitVec.extractLsb'_extractLsb'_of_le (by decide)

/-- The high nibble of a block's low byte is N2 (R8). -/
theorem hiNibble_loByte (x : Block) : hiNibble (loByte x) = nib2 x :=
  BitVec.extractLsb'_extractLsb'_of_le (by decide)

/-- ROTSUB substitutes N3 and N2 of the snapshot, swaps them and zero-extends the byte (R160, R165). -/
theorem rotsubResult_eq (T : SBox) (p : Pending) :
    rotsubResult T p = zextByte (packNibblePair (sboxAt T (nib3 p.a)) (sboxAt T (nib2 p.a))) := by
  rw [rotsubResult, rotSub, loNibble_loByte, hiNibble_loByte]

/-- Settles O8: the issue is by ROTSUB's range condition, and the completion is `rotsubResult`. -/
theorem rotsubIssuesChecksAndCompletes : Obligations.RotsubIssuesChecksAndCompletes := by
  unfold Obligations.RotsubIssuesChecksAndCompletes
  refine ⟨rfl, fun s hp ha => ?_, fun s hp ha => ?_, fun s a b k hp =>
    exec_completesWith hp (congrArg (completeResult · s) (rotsubResult_eq _ _)),
    fun s => act_write_ctrl_inFlight _, fun T b => zextByte_high (rotSub T b), by decide⟩
  · exact exec_accepts hp ((byteRangeCause_eq_none_iff s).mpr ha)
  · exact exec_rejects (i := .rotsub) (c := .range) hp ((byteRangeCause_eq_range_iff s).mpr ha)

/-- KEYEXP's completion writes W, KV, DONE and BUSY, all at once (R56, R166). -/
theorem exec_keyexp_completes {s : State} {a b k : Block} (hp : s.pend = some ⟨.keyexp, a, b, k⟩) :
    ∃ o, exec .keyexp s =
      .next { s with w := expandKey s.sbox k, kv := true, done := true, pend := none, orch := o } :=
  ⟨Orch.idle, exec_inFlight hp⟩

/-- RK0 is the key (R163, R164). -/
theorem expandKey_rk0 (T : SBox) (k : Block) : (expandKey T k).rk0 = k :=
  pack_bytes k

/-- Settles O9: nothing rejects KEYEXP; where W already holds the key's expansion and KV = 1, the completion writes back what is there. -/
theorem keyexpIssuesAndCompletes : Obligations.KeyexpIssuesAndCompletes := by
  unfold Obligations.KeyexpIssuesAndCompletes
  refine ⟨rfl, fun s hp => exec_accepts hp rfl, fun s a b k hp => exec_keyexp_completes hp,
    fun s => act_write_ctrl_inFlight _, fun s a b k hp hkv hw => ?_, expandKey_rk0, by decide⟩
  rw [hkv, hw]
  exact exec_keyexp_completes hp

end Sys2Proof.Machine
end

section
/-! O10, O11 (44_cipher_core.md R183 to R188): the commands ENC and DEC. -/

namespace Sys2Proof.Machine

open PseudoCode

/-- NOKEY is the cause of ENC and DEC exactly when KV = 0 (R55, R202). -/
theorem noKeyCause_eq_noKey_iff (s : State) : noKeyCause s = some .noKey ↔ s.kv = false := by
  simp [noKeyCause]

/-- Adding a key to itself gives the zero block (R148). -/
theorem vecToInt_addRoundKey_self (v : StateVec) : vecToInt (addRoundKey v v) = 0#16 := by
  simp only [addRoundKey, BitVec.xor_self]
  rfl

/-- Settles O10: the issue is by KV, the completion is `encrypt`, and encryption undoes decryption. -/
theorem encIssuesChecksAndCompletes : Obligations.EncIssuesChecksAndCompletes := by
  unfold Obligations.EncIssuesChecksAndCompletes
  refine ⟨rfl, fun s hp hkv => ?_, fun s hp hkv => ?_, fun s a b k hp => exec_completesWith hp rfl,
    fun s => act_write_ctrl_inFlight _, fun w => vecToInt_addRoundKey_self _, fun T hT c w => encrypt_decrypt hT w c,
    by decide⟩
  · exact exec_accepts hp ((noKeyCause_eq_none_iff s).mpr hkv)
  · exact exec_rejects (i := .enc) (c := .noKey) hp ((noKeyCause_eq_noKey_iff s).mpr hkv)

/-- Settles O11: as ENC, with `decrypt`, which undoes encryption. -/
theorem decIssuesChecksAndCompletes : Obligations.DecIssuesChecksAndCompletes := by
  unfold Obligations.DecIssuesChecksAndCompletes
  refine ⟨rfl, fun s hp hkv => ?_, fun s hp hkv => ?_, fun s a b k hp => exec_completesWith hp rfl,
    fun s => act_write_ctrl_inFlight _, fun T hT p w => decrypt_encrypt hT w p, by decide⟩
  · exact exec_accepts hp ((noKeyCause_eq_none_iff s).mpr hkv)
  · exact exec_rejects (i := .dec) (c := .noKey) hp ((noKeyCause_eq_noKey_iff s).mpr hkv)

end Sys2Proof.Machine
end

section
/-! O41, O42 (42_state_transforms.md R140 to R142, R152): the layout maps, and the laws of the transforms on state vectors. -/

namespace Sys2Proof.Machine

/-- Four nibbles put together are the union of the four, each shifted to its place (R9). -/
theorem packNibbles_eq_or (a b c d : Nibble) : packNibbles a b c d =
    (a.setWidth 16 <<< 12) ||| (b.setWidth 16 <<< 8) ||| (c.setWidth 16 <<< 4) ||| d.setWidth 16 := by
  refine BitVec.eq_of_getLsbD_eq fun i hi => ?_
  simp only [packNibbles_bit, BitVec.getLsbD_or, BitVec.getLsbD_shiftLeft, BitVec.getLsbD_setWidth]
  interval_cases i <;> simp

/-- Settles O41: the maps are those of R140 and R141, the second through the shifted form of packing, and undo each other. -/
theorem layoutMapsAreInverse : Obligations.LayoutMapsAreInverse := by
  unfold Obligations.LayoutMapsAreInverse
  exact ⟨fun x => rfl, fun v => packNibbles_eq_or v.s0 v.s2 v.s1 v.s3, vecToInt_intToVec, intToVec_vecToInt⟩

/-- Exchanging elements commutes with a map applied to each element. -/
theorem shiftRow_mapNibbles (f : Nibble → Nibble) (v : StateVec) :
    shiftRow (mapNibbles f v) = mapNibbles f (shiftRow v) := rfl

/-- Settles O42: each transform is undone by its inverse, and the row shift commutes with either table. -/
theorem transformLaws : Obligations.TransformLaws := by
  unfold Obligations.TransformLaws
  exact ⟨shiftRow_shiftRow, addRoundKey_addRoundKey,
    fun v => ⟨inverseMixColumns_mixColumns v, mixColumns_inverseMixColumns v⟩,
    fun T v => ⟨shiftRow_mapNibbles (sboxAt T) v, shiftRow_mapNibbles (sboxInvAt T) v⟩⟩

end Sys2Proof.Machine
end

section
/-! O4, O5 (42_state_transforms.md R144, R147, R148): the commands SHR and ADDK. -/

namespace Sys2Proof.Machine

open PseudoCode

/-! ### The row shift of a block (R144) -/

/-- The row shift of a block's state vector is the block-level row shift (R144). -/
theorem vecToInt_shiftRow (x : Block) : vecToInt (shiftRow (intToVec x)) = shiftRowBlock x := rfl

/-- The row shift leaves a block with N1 = N3 as it is (R147). -/
theorem shiftRowBlock_eq_self {x : Block} (h : nib1 x = nib3 x) : shiftRowBlock x = x := by
  calc shiftRowBlock x = packNibbles (nib0 x) (nib1 x) (nib2 x) (nib3 x) := by rw [shiftRowBlock, h]
    _ = x := pack_nibs x

/-- The block-level row shift undoes itself (R147). -/
@[simp] theorem shiftRowBlock_shiftRowBlock (x : Block) : shiftRowBlock (shiftRowBlock x) = x := by
  simp only [← vecToInt_shiftRow, intToVec_vecToInt, shiftRow_shiftRow, vecToInt_intToVec]

/-- Settles O4: nothing rejects SHR, its completion is the block-level row shift, and that undoes itself. -/
theorem shrIssuesAndCompletes : Obligations.ShrIssuesAndCompletes := by
  unfold Obligations.ShrIssuesAndCompletes
  refine ⟨rfl, fun s hp => exec_accepts hp rfl, fun s a b k hp => ?_, fun s => act_write_ctrl_inFlight _,
    fun x => shiftRowBlock_eq_self, shiftRowBlock_shiftRowBlock, by decide⟩
  obtain ⟨o, ho⟩ := exec_completesWith hp (congrArg (completeResult · s) (vecToInt_shiftRow a))
  exact ⟨o, ho, (vecToInt_shiftRow a).symm⟩

/-! ### The key addition of a block (R148) -/

/-- Adding a key to a block's state vector is the xor of the two blocks, because `intToVec` only moves bits (R148). -/
theorem vecToInt_addRoundKey (k x : Block) : vecToInt (addRoundKey (intToVec k) (intToVec x)) = x ^^^ k := by
  calc vecToInt (addRoundKey (intToVec k) (intToVec x))
      = packNibbles (nib0 (x ^^^ k)) (nib1 (x ^^^ k)) (nib2 (x ^^^ k)) (nib3 (x ^^^ k)) := by
        rw [nib0_xor, nib1_xor, nib2_xor, nib3_xor]; rfl
    _ = x ^^^ k := pack_nibs _

/-- Settles O5: nothing rejects ADDK, its completion is the xor of the snapshots, and the corner cases are laws of xor. -/
theorem addkIssuesAndCompletes : Obligations.AddkIssuesAndCompletes := by
  unfold Obligations.AddkIssuesAndCompletes
  refine ⟨rfl, fun s hp => exec_accepts hp rfl,
    fun s a b k hp => exec_completesWith hp (congrArg (completeResult · s) (vecToInt_addRoundKey b a)),
    fun s => act_write_ctrl_inFlight _, fun t v => rfl, fun x k => vecToInt_addRoundKey k x,
    fun x k => ⟨BitVec.xor_zero, BitVec.xor_self, ?_⟩, rfl⟩
  rw [BitVec.xor_assoc, BitVec.xor_self, BitVec.xor_zero]

end Sys2Proof.Machine
end

section
/-! O6, O7 (42_state_transforms.md R145, R146, R149, R150): the commands MIXC and IMIXC. A column of a block is one of its bytes. -/

namespace Sys2Proof.Machine

open PseudoCode

/-! ### Column mixing of a block (R145, R146) -/

/-- The column mix of a block's state vector is the block-level column mix (R145). -/
theorem vecToInt_mixColumns (x : Block) : vecToInt (mixColumns (intToVec x)) = mixBlock x := rfl

/-- The inverse column mix of a block's state vector is the block-level one (R146). -/
theorem vecToInt_inverseMixColumns (x : Block) : vecToInt (inverseMixColumns (intToVec x)) = invMixBlock x := rfl

/-- The inverse column mix undoes the column mix, on blocks (R150, R152). -/
@[simp] theorem invMixBlock_mixBlock (x : Block) : invMixBlock (mixBlock x) = x := by
  simp only [← vecToInt_mixColumns, ← vecToInt_inverseMixColumns, intToVec_vecToInt, inverseMixColumns_mixColumns,
    vecToInt_intToVec]

/-! ### One column (R145) -/

/-- [[1, 4], [4, 1]] applied to the column of two nibbles that a byte holds (R145). -/
def mixByte (c : Byte) : Byte :=
  packNibblePair (hiNibble c ^^^ gmul 4#4 (loNibble c)) (loNibble c ^^^ gmul 4#4 (hiNibble c))

/-- Four nibbles put together are two bytes put together (R8, R9). -/
theorem packNibbles_eq_packBytes (a b c d : Nibble) :
    packNibbles a b c d = packBytes (packNibblePair a b) (packNibblePair c d) :=
  BitVec.append_assoc (x₁ := a ++ b) (x₂ := c) (x₃ := d)

/-- A field of a field of x is the field of x that starts at the sum of the two starts. -/
theorem extractLsb'_extractLsb'_add {w : Nat} (x : BitVec w) {i m j n : Nat} (h : j + n ≤ m) :
    (x.extractLsb' i m).extractLsb' j n = x.extractLsb' (i + j) n := by
  refine BitVec.eq_of_getLsbD_eq fun k hk => ?_
  have hkm : j + k < m := by omega
  simp only [BitVec.getLsbD_extractLsb', hk, hkm, decide_true, Bool.true_and, Nat.add_assoc]

/-- The high nibble of a block's high byte is N0 (R8). -/
theorem hiNibble_hiByte (x : Block) : hiNibble (hiByte x) = nib0 x :=
  extractLsb'_extractLsb'_add x (by decide)

/-- The low nibble of a block's high byte is N1 (R8). -/
theorem loNibble_hiByte (x : Block) : loNibble (hiByte x) = nib1 x :=
  extractLsb'_extractLsb'_add x (by decide)

/-- Column mixing mixes each byte of the block by itself (R149: the columns are independent). -/
theorem mixBlock_eq_packBytes (x : Block) : mixBlock x = packBytes (mixByte (hiByte x)) (mixByte (loByte x)) := by
  rw [mixByte, mixByte, hiNibble_hiByte, loNibble_hiByte, hiNibble_loByte, loNibble_loByte]
  exact packNibbles_eq_packBytes ..

/-- The high byte of a mixed block is the mixed high byte. -/
@[simp] theorem hiByte_mixBlock (x : Block) : hiByte (mixBlock x) = mixByte (hiByte x) := by
  rw [mixBlock_eq_packBytes, hiByte_pack]

/-- The low byte of a mixed block is the mixed low byte. -/
@[simp] theorem loByte_mixBlock (x : Block) : loByte (mixBlock x) = mixByte (loByte x) := by
  rw [mixBlock_eq_packBytes, loByte_pack]

/-! ### Columns (t, t) (R149, R150) -/

/-- `gmul` distributes over xor in its first factor too (R103). -/
theorem xor_gmul (a b c : Nibble) : gmul (a ^^^ b) c = gmul a c ^^^ gmul b c := by
  rw [gmul_comm, gmul_xor, gmul_comm c, gmul_comm c]

/-- Each element of a mixed column (t, t) is 5t, since 1 xor 4 is 5 (R149). -/
theorem xor_gmul_four (t : Nibble) : t ^^^ gmul 4#4 t = gmul 5#4 t := by
  calc t ^^^ gmul 4#4 t = gmul 1#4 t ^^^ gmul 4#4 t := by rw [one_gmul]
    _ = gmul 5#4 t := (xor_gmul 1#4 4#4 t).symm

/-- The column mix of a block whose columns are (t, t) and (u, u) (R149). -/
theorem mixBlock_packNibbles (t u : Nibble) :
    mixBlock (packNibbles t t u u) = packNibbles (gmul 5#4 t) (gmul 5#4 t) (gmul 5#4 u) (gmul 5#4 u) := by
  simp only [mixBlock, nib0_pack, nib1_pack, nib2_pack, nib3_pack, xor_gmul_four]

/-- Each element of an inversely mixed column (t, t) is 0xB times t, since 9 xor 2 is 0xB (R150). -/
theorem gmul_nine_xor_gmul_two (t : Nibble) : gmul 9#4 t ^^^ gmul 2#4 t = gmul 0xB#4 t :=
  (xor_gmul 9#4 2#4 t).symm

/-- The inverse column mix of a block whose columns are (t, t) and (u, u) (R150). -/
theorem invMixBlock_packNibbles (t u : Nibble) :
    invMixBlock (packNibbles t t u u) = packNibbles (gmul 0xB#4 t) (gmul 0xB#4 t) (gmul 0xB#4 u) (gmul 0xB#4 u) := by
  simp only [invMixBlock, nib0_pack, nib1_pack, nib2_pack, nib3_pack, BitVec.xor_comm (gmul 2#4 _) (gmul 9#4 _),
    gmul_nine_xor_gmul_two]

/-! ### MIXC and IMIXC (R149, R150) -/

/-- Settles O6: nothing rejects MIXC, its completion is the block-level column mix, and that mixes each byte by itself. -/
theorem mixcIssuesAndCompletes : Obligations.MixcIssuesAndCompletes := by
  unfold Obligations.MixcIssuesAndCompletes
  refine ⟨rfl, fun s hp => exec_accepts hp rfl, fun s a b k hp => ?_, fun s => act_write_ctrl_inFlight _, by decide,
    mixBlock_packNibbles, fun x y hxy => ?_, fun x y hxy => ?_, by decide⟩
  · obtain ⟨o, ho⟩ := exec_completesWith hp (congrArg (completeResult · s) (vecToInt_mixColumns a))
    exact ⟨o, ho, (vecToInt_mixColumns a).symm⟩
  · calc hiByte (mixBlock x) = mixByte (hiByte x) := hiByte_mixBlock x
      _ = mixByte (hiByte y) := congrArg mixByte hxy
      _ = hiByte (mixBlock y) := (hiByte_mixBlock y).symm
  · calc loByte (mixBlock x) = mixByte (loByte x) := loByte_mixBlock x
      _ = mixByte (loByte y) := congrArg mixByte hxy
      _ = loByte (mixBlock y) := (loByte_mixBlock y).symm

/-- Settles O7: as MIXC, with the inverse column mix, which undoes the column mix. -/
theorem imixcIssuesAndCompletes : Obligations.ImixcIssuesAndCompletes := by
  unfold Obligations.ImixcIssuesAndCompletes
  refine ⟨rfl, fun s hp => exec_accepts hp rfl, fun s a b k hp => ?_, fun s => act_write_ctrl_inFlight _, by decide,
    invMixBlock_packNibbles, by decide, invMixBlock_mixBlock, by decide⟩
  obtain ⟨o, ho⟩ := exec_completesWith hp (congrArg (completeResult · s) (vecToInt_inverseMixColumns a))
  exact ⟨o, ho, (vecToInt_inverseMixColumns a).symm⟩

end Sys2Proof.Machine
end

section
/-! O43 (43_key_schedule.md R160 to R164): the key schedule's equations. Each reads the bytes of the store that the equations before it gave. -/

namespace Sys2Proof.Machine

/-- ROTSUB's byte is the substituted low nibble above the substituted high nibble (R160). -/
theorem rotSub_eq_append (T : SBox) (b : Byte) :
    rotSub T b = sboxAt T (b.extractLsb' 0 4) ++ sboxAt T (b.extractLsb' 4 4) := rfl

/-- The first byte under Rcon1 (R162). -/
theorem expandKey_w2 (T : SBox) (k : Block) :
    (expandKey T k).w2 = (expandKey T k).w0 ^^^ 0x80#8 ^^^ rotSub T (expandKey T k).w1 := rfl

/-- The second byte of the first expansion (R162). -/
theorem expandKey_w3 (T : SBox) (k : Block) :
    (expandKey T k).w3 = (expandKey T k).w2 ^^^ (expandKey T k).w1 := rfl

/-- The first byte under Rcon2 (R162). -/
theorem expandKey_w4 (T : SBox) (k : Block) :
    (expandKey T k).w4 = (expandKey T k).w2 ^^^ 0x30#8 ^^^ rotSub T (expandKey T k).w3 := rfl

/-- The second byte of the second expansion (R162). -/
theorem expandKey_w5 (T : SBox) (k : Block) :
    (expandKey T k).w5 = (expandKey T k).w4 ^^^ (expandKey T k).w3 := rfl

/-- Settles O43: the six bytes are the store's own fields, each given by its equation; the first two are the key's halves, and packed again they are the key. -/
theorem keyExpansionEquations : Obligations.KeyExpansionEquations := by
  unfold Obligations.KeyExpansionEquations
  intro T k
  have hw2 := expandKey_w2 T k
  have hw4 := expandKey_w4 T k
  rw [rotSub_eq_append] at hw2 hw4
  exact ⟨(expandKey T k).w0, (expandKey T k).w1, (expandKey T k).w2, (expandKey T k).w3, (expandKey T k).w4,
    (expandKey T k).w5, rfl, rfl, rfl, hw2, expandKey_w3 T k, hw4, expandKey_w5 T k, expandKey_rk0 T k, rfl, rfl⟩

end Sys2Proof.Machine
end

section
/-! O44, O45 (44_cipher_core.md R183, R184, R186, R188): the cipher's block-level form, and its two directions undo each other. -/

namespace Sys2Proof.Machine

/-- Substitution of a block's state vector is the block-level substitution (R124). -/
theorem vecToInt_substituteNibbles (T : SBox) (x : Block) : vecToInt (substituteNibbles T (intToVec x)) = subBlock T x :=
  vecToInt_mapNibbles (sboxAt T) x

/-- Inverse substitution of a block's state vector is the block-level one (R124). -/
theorem vecToInt_substituteNibblesInv (T : SBox) (x : Block) :
    vecToInt (substituteNibblesInv T (intToVec x)) = subBlockInv T x :=
  vecToInt_mapNibbles (sboxInvAt T) x

/-- Between two block transforms the layout maps cancel, so the block-level form of encryption is the vector form (R184). -/
theorem encrypt_eq_encryptBlock (T : SBox) (x : Block) (w : KeyStore) : encrypt T x w = encryptBlock T x w := by
  simp only [encrypt, encryptBlock, ← vecToInt_addRoundKey, ← vecToInt_substituteNibbles, ← vecToInt_shiftRow,
    ← vecToInt_mixColumns, intToVec_vecToInt]

/-- As for encryption, with the inverse transforms (R186). -/
theorem decrypt_eq_decryptBlock (T : SBox) (x : Block) (w : KeyStore) : decrypt T x w = decryptBlock T x w := by
  simp only [decrypt, decryptBlock, ← vecToInt_addRoundKey, ← vecToInt_substituteNibblesInv, ← vecToInt_shiftRow,
    ← vecToInt_inverseMixColumns, intToVec_vecToInt]

/-- Settles O44: each vector transform, between the layout maps, is its block form, and the maps between two transforms cancel. -/
theorem cipherEqualsItsBlockForm : Obligations.CipherEqualsItsBlockForm := by
  unfold Obligations.CipherEqualsItsBlockForm
  exact fun T x w => ⟨encrypt_eq_encryptBlock T x w, decrypt_eq_decryptBlock T x w⟩

/-- Settles O45: each step is undone by its mirror step under the same round key, for any store (`decrypt_encrypt`, `encrypt_decrypt`). -/
theorem encryptionAndDecryptionAreInverse : Obligations.EncryptionAndDecryptionAreInverse := by
  unfold Obligations.EncryptionAndDecryptionAreInverse
  exact fun T hT w x => ⟨decrypt_encrypt hT w x, encrypt_decrypt hT w x⟩

end Sys2Proof.Machine
end

section
/-! O16, O17 (60_exceptions.md R205 to R207): the transactions answered with ERROR, their causes, and what they leave. -/

namespace Sys2Proof.Machine

/-- The causes of a bus error (R206, R207), by the transaction: the offset and, in a write, the register, the value and BUSY. -/
def BusErrorCause (s : State) : Request → Prop
  | .read off => off.extractLsb' 0 2 ≠ 0#2 ∨ 0x24#6 ≤ off
  | .write off v =>
    off.extractLsb' 0 2 ≠ 0#2 ∨ 0x24#6 ≤ off ∨
    off = 0x04#6 ∨ off = 0x14#6 ∨ off = 0x18#6 ∨ off = 0x1C#6 ∨ off = 0x20#6 ∨
    (off = 0x00#6 ∧ v.extractLsb' 4 28 ≠ 0#28) ∨
    ((off = 0x08#6 ∨ off = 0x0C#6 ∨ off = 0x10#6) ∧ v.extractLsb' 16 16 ≠ 0#16) ∨
    ((off = 0x00#6 ∨ off = 0x08#6 ∨ off = 0x0C#6 ∨ off = 0x10#6) ∧ s.pend.isSome = true)

/-- A transaction on s that answers t is a bus error if there is a cause for one, and is answered OKAY if there is none. -/
def RefusedExactlyWhen (cause : Prop) (s t : State) : Prop :=
  (cause ∧ t = busError s) ∨ (¬cause ∧ ∃ x, t.resp = some { err := false, rdata := x })

/-- A transaction with a cause is to be a bus error. -/
theorem RefusedExactlyWhen.of_cause {c : Prop} (hc : c) (s : State) : RefusedExactlyWhen c s (busError s) :=
  .inl ⟨hc, rfl⟩

/-- A transaction without a cause is to be answered OKAY. -/
theorem RefusedExactlyWhen.of_okay {c : Prop} (hc : ¬c) {s t : State} {x : BusWord}
    (ht : t.resp = some { err := false, rdata := x }) : RefusedExactlyWhen c s t :=
  .inr ⟨hc, x, ht⟩

/-- A response carries ERROR exactly when there is a cause. -/
theorem RefusedExactlyWhen.err_iff {c : Prop} {s t : State} {e : Response} (h : RefusedExactlyWhen c s t)
    (hr : t.resp = some e) : e.err = true ↔ c := by
  rcases h with ⟨hc, rfl⟩ | ⟨hc, x, ht⟩
  · obtain rfl := Option.some.inj hr
    exact iff_of_true rfl hc
  · obtain rfl := Option.some.inj (ht.symm.trans hr)
    exact iff_of_false Bool.false_ne_true hc

/-- A response that carries ERROR is a bus error's, which changes nothing (R205). -/
theorem RefusedExactlyWhen.eq_busError {c : Prop} {s t : State} {e : Response} (h : RefusedExactlyWhen c s t)
    (hr : t.resp = some e) (he : e.err = true) : t = busError s := by
  have hc : c := (h.err_iff hr).mp he
  rcases h with ⟨-, ht⟩ | ⟨hn, -⟩
  · exact ht
  · exact absurd hc hn

/-- The offsets that name no register are the misaligned ones and the reserved ones from 0x24 on (R22, R58). -/
theorem regAt?_eq_none_iff_reserved (off : Offset) : regAt? off = none ↔ off.extractLsb' 0 2 ≠ 0#2 ∨ 0x24#6 ≤ off := by
  revert off
  decide

/-- A read is refused exactly at an offset that names no register (R52). -/
theorem hostRead_refused (off : Offset) (s : State) : RefusedExactlyWhen (regAt? off = none) s (hostRead off s) := by
  unfold hostRead
  cases regAt? off with
  | none => exact .of_cause rfl s
  | some r => exact .of_okay (by simp) (okay_resp ..)

/-- A write of an operand register is refused exactly for a value wider than 16 bits or while BUSY = 1 (R206, R207). -/
theorem writeOperand_refused (set : Block → State → State) (v : BusWord) (s : State) :
    RefusedExactlyWhen (v.extractLsb' 16 16 ≠ 0#16 ∨ s.pend.isSome = true) s (writeOperand set v s) := by
  by_cases hc : v.extractLsb' 16 16 ≠ 0#16 ∨ s.pend.isSome = true
  · rw [writeOperand_refuses set hc]
    exact .of_cause hc s
  · obtain ⟨hv, hp⟩ : v.extractLsb' 16 16 = 0#16 ∧ s.pend = none := by simpa using hc
    rw [writeOperand_accepts set hv hp]
    exact .of_okay hc (okay_resp ..)

/-- An issue is answered OKAY, accepted or rejected (R55, R201). -/
@[simp] theorem issueCommand_resp (i : Instr) (c : Option CmdErrorCause) (s : State) :
    (issueCommand i c s).resp = some { err := false, rdata := 0#32 } := by
  cases c <;> rfl

/-- A CTRL write is refused exactly for a word with a reserved bit set or while BUSY = 1: a command error is answered OKAY (R201, R206, R207). -/
theorem writeCtrl_refused {v : BusWord} {s t : State} (h : writeCtrl v s = .next t) :
    RefusedExactlyWhen (v.extractLsb' 4 28 ≠ 0#28 ∨ s.pend.isSome = true) s t := by
  rcases Option.eq_none_or_eq_some s.pend with hp | ⟨p, hp⟩
  · have hlegal : decodeCommand v ≠ .illegalWord → ¬(v.extractLsb' 4 28 ≠ 0#28 ∨ s.pend.isSome = true) := by
      simp [decodeCommand_eq_illegalWord_iff, hp]
    cases hd : decodeCommand v with
    | illegalWord =>
      cases (writeCtrl_illegalWord hd s).symm.trans h
      exact .of_cause (.inl ((decodeCommand_eq_illegalWord_iff v).mp hd)) s
    | reservedOp op =>
      cases (writeCtrl_reservedOp hp hd).symm.trans h
      exact .of_okay (hlegal (by simp [hd])) (rejectCommand_resp ..)
    | command i =>
      cases (writeCtrl_command hp hd).symm.trans h
      exact .of_okay (hlegal (by simp [hd])) (issueCommand_resp ..)
  · cases (writeCtrl_inFlight v hp).symm.trans h
    exact .of_cause (.inr (by simp [hp])) s

/-- A write is refused exactly for its causes, register by register (R206, R207). -/
theorem hostWrite_refused {off : Offset} {v : BusWord} {s t : State} (h : hostWrite off v s = .next t) :
    RefusedExactlyWhen (BusErrorCause s (.write off v)) s t := by
  cases hr : regAt? off with
  | none =>
    rw [hostWrite, hr] at h
    cases h
    have hoff := (regAt?_eq_none_iff_reserved off).mp hr
    exact .of_cause (hoff.imp_right .inl) s
  | some r =>
    obtain rfl := eq_offset_of_regAt? hr
    cases r with
    | ctrl => simpa [BusErrorCause, Reg.offset] using writeCtrl_refused h
    | key | dinA | dinB =>
      cases h
      simpa [BusErrorCause, Reg.offset] using writeOperand_refused _ v s
    | status | result | rk0 | rk1 | rk2 =>
      cases h
      exact .of_cause (by simp [BusErrorCause, Reg.offset]) s

/-- Every transaction is refused exactly for its causes (R206, R207). -/
theorem transaction_refused {r : Request} {s t : State} (h : act (.host r) s = .next t) :
    RefusedExactlyWhen (BusErrorCause s r) s t := by
  cases r with
  | read off =>
    cases h
    have hread := hostRead_refused off s
    rwa [regAt?_eq_none_iff_reserved off] at hread
  | write off v => exact hostWrite_refused h

/-- Settles O16: a transaction answered with ERROR is a bus error, on the state with the transaction taken off the stream. -/
theorem busErrorChangesNothing : Obligations.BusErrorChangesNothing := by
  unfold Obligations.BusErrorChangesNothing
  intro s t r rest e hs hstep hr he
  have hact : act (.host r) { s with inputs := rest } = .next t := (step_cons hs).symm.trans hstep
  obtain rfl := (transaction_refused hact).eq_busError hr he
  obtain rfl := Option.some.inj hr
  exact ⟨rfl, rfl⟩

/-- Settles O17: a transaction is refused exactly for the causes of its kind, and is then a bus error. -/
theorem busErrorHasExactlyItsCauses : Obligations.BusErrorHasExactlyItsCauses := by
  unfold Obligations.BusErrorHasExactlyItsCauses
  refine ⟨fun s t off e hact hr => (transaction_refused hact).err_iff hr, fun s t off v e hact hr => ?_⟩
  have hw := transaction_refused hact
  exact ⟨hw.err_iff hr, hw.eq_busError hr⟩

end Sys2Proof.Machine
end

section
/-! O28, O29, O32, O54 (10_state.md R23, R31, R37, 70_reset_and_hazards.md R230, R232, R243): what reset leaves, that both invariants hold of it, and the round keys after a change of KEY. -/

namespace Sys2Proof.Machine

/-- Settles O28: a step with `Reset` at the head of the stream is `resetStep`, which reads nothing of the state but the S-box and the rest of the stream. -/
theorem resetSetsEveryRegister : Obligations.ResetSetsEveryRegister := by
  unfold Obligations.ResetSetsEveryRegister
  intro s rest h
  refine ⟨resetStep { s with inputs := rest }, step_cons h, ?_⟩
  simp [State.reset, Orch.idle]

/-- A CORE just reset, built with a permutation, satisfies the invariant: nothing is in flight, and KV, DONE, ERR and ERRCODE are 0. -/
theorem CoreInv.resetWith {T : SBox} (hT : T.IsPermutation) : CoreInv (State.resetWith T) :=
  .of_idle rfl (by simp [State.reset]) (by simp [State.reset, errorCodeNone]) (Nat.zero_le 3) (by simp [State.reset]) hT

/-- Settles O32: the default reset state is the one built with the default table, which is a permutation (R121). -/
theorem invariantHoldsAtReset : Obligations.InvariantHoldsAtReset := by
  unfold Obligations.InvariantHoldsAtReset
  have hdefault : defaultSbox.IsPermutation := by decide
  exact ⟨.resetWith hdefault, fun T => .resetWith⟩

/-- Settles O54: after reset nothing is in flight and the orchestrator is idle. -/
theorem cycleInvariantHoldsAtReset : Obligations.CycleInvariantHoldsAtReset := by
  unfold Obligations.CycleInvariantHoldsAtReset
  intro T L
  exact .of_idle L rfl rfl

/-- The three views read W alone (R37). -/
theorem readWord_view_congr {r : Reg} (hr : r ∈ [Reg.rk0, .rk1, .rk2]) {s t : State} (hw : t.w = s.w) :
    readWord r t = readWord r s := by
  fin_cases hr <;> simp [readWord, hw]

/-- Settles O29: an accepted write of KEY is `setKey`, which clears KV, the condition of ENC and DEC, and leaves W, which the views show. -/
theorem keyChangeLeavesStaleRoundKeys : Obligations.KeyChangeLeavesStaleRoundKeys := by
  unfold Obligations.KeyChangeLeavesStaleRoundKeys
  intro s t v hp hact ht
  obtain ⟨-, rfl⟩ := eq_setKey_of_okay hact ht
  exact ⟨rfl, rfl, fun r hr => readWord_view_congr hr rfl, exec_noKey (.inl rfl) hp rfl, exec_noKey (.inr rfl) hp rfl⟩

end Sys2Proof.Machine
end

section
/-! O55 (10_state.md R28, R39, 70_reset_and_hazards.md R250, R251): the edges from a command's issue to its completion. -/

namespace Sys2Proof.Machine

/-- BUSY is bit 0 of the STATUS word (R28). -/
theorem statusWord_busy (s : State) : (statusWord s).getLsbD 0 = s.pend.isSome := by
  rw [statusWord_bit s (by omega)]
  simp [State.busy]

/-- DONE is bit 1 of the STATUS word (R28). -/
theorem statusWord_done (s : State) : (statusWord s).getLsbD 1 = s.done := by
  rw [statusWord_bit s (by omega)]
  simp

/-- ERR is bit 3 of the STATUS word (R28). -/
theorem statusWord_err (s : State) : (statusWord s).getLsbD 3 = s.err := by
  rw [statusWord_bit s (by omega)]
  simp

/-- A cycle that writes a command's word to CTRL, with nothing in flight, is the command's issue: its edge is not counted (R67, R250). -/
theorem cycle_issues (L : Latency) {q : Ports} {s : State} {i : Instr} (hp : s.pend = none) (hrst : q.rst = false)
    (hreq : q.req = true) (hwe : q.we = true) (haddr : q.addr = 0x00#6) (hdata : q.wdata = encode i) :
    cycle L q s = .next (issueCommand i (rejectionCause i s) s) := by
  have hrequest : q.request = .write 0x00#6 (encode i) := by simp [Ports.request, requestOfPorts, hwe, haddr, hdata]
  have hissue : hostPart q s = .next (issueCommand i (rejectionCause i s) s) := by
    rw [hostPart_request hreq, hrequest, act_write_ctrl, writeCtrl_command hp (decodeCommand_encode i)]
  rw [cycle_of_hostPart L hrst hissue, (busy_eq_false_iff s).mpr hp]
  rfl

/-- A cycle with a command in flight is the engine's edge, whatever the host does short of reset (R67, R207). -/
theorem cycle_inFlight (L : Latency) {q : Ports} {s : State} {p : Pending} (hrst : q.rst = false) (hp : s.pend = some p) :
    ∃ r, cycle L q s = .next (engineEdge L { s with resp := r }) := by
  obtain ⟨u, hu, -⟩ := hostPart_cases q s
  obtain ⟨r, rfl⟩ := hostPart_inFlight (by simp [hp]) hu
  refine ⟨r, ?_⟩
  rw [cycle_of_hostPart L hrst hu, (busy_eq_true_iff s).mpr ⟨p, hp⟩]
  rfl

/-- The completion edge sets DONE (R30, R56). -/
theorem orchComplete_done {s : State} {p : Pending} (hp : s.pend = some p) : (orchComplete s).done = true := by
  simp only [orchComplete, hp]
  split <;> rfl

section InFlight
variable (L : Latency) {p : Pending}

/-- A cycle short of the latency leaves the command in flight, one edge further (R250). -/
theorem cycle_advances {q : Ports} {s : State} (hrst : q.rst = false) (hp : s.pend = some p)
    (hshort : s.orch.cycles + 1 < latencyOf L p.op) :
    ∃ t, cycle L q s = .next t ∧ t.pend = some p ∧ t.done = s.done ∧ t.orch.cycles = s.orch.cycles + 1 := by
  obtain ⟨r, hr⟩ := cycle_inFlight L hrst hp
  rw [engineEdge_advances (s := { s with resp := r }) hp (by simpa using hshort)] at hr
  exact ⟨_, hr, hp, rfl, orchAdvance_cycles ..⟩

/-- The cycle whose edge reaches the latency completes the command (R250). -/
theorem cycle_completes {q : Ports} {s : State} (hrst : q.rst = false) (hp : s.pend = some p)
    (hlast : latencyOf L p.op ≤ s.orch.cycles + 1) :
    ∃ t, cycle L q s = .next t ∧ t.pend = none ∧ t.done = true := by
  obtain ⟨r, hr⟩ := cycle_inFlight L hrst hp
  have hpr : State.pend { s with resp := r } = some p := hp
  rw [engineEdge_completes hpr hlast] at hr
  obtain ⟨hpend, -⟩ := orchComplete_idle hpr
  exact ⟨_, hr, hpend, orchComplete_done hpr⟩

/-- Cycles that stay short of the latency leave the command in flight and DONE as it was. -/
theorem cycles_short_of_latency {qs : List Ports} {s : State} (hrst : ∀ q ∈ qs, q.rst = false) (hp : s.pend = some p)
    (hshort : s.orch.cycles + qs.length < latencyOf L p.op) :
    ∃ t, cycles L qs s = .next t ∧ t.pend = some p ∧ t.done = s.done := by
  induction qs generalizing s with
  | nil => exact ⟨s, rfl, hp, rfl⟩
  | cons q qs ih =>
    obtain ⟨hq, hqs⟩ := List.forall_mem_cons.mp hrst
    rw [List.length_cons] at hshort
    obtain ⟨u, hu, hup, hudone, hucycles⟩ := cycle_advances L hq hp (by omega)
    obtain ⟨t, ht, htp, htdone⟩ := ih hqs hup (by omega)
    exact ⟨t, by simpa only [cycles, hu] using ht, htp, htdone.trans hudone⟩

/-- Cycles that reach the latency end with the command complete. -/
theorem cycles_reaching_latency {qs : List Ports} {s : State} (hrst : ∀ q ∈ qs, q.rst = false) (hp : s.pend = some p)
    (hshort : s.orch.cycles < latencyOf L p.op) (hreach : s.orch.cycles + qs.length = latencyOf L p.op) :
    ∃ t, cycles L qs s = .next t ∧ t.pend = none ∧ t.done = true := by
  induction qs generalizing s with
  | nil => exact absurd hreach hshort.ne
  | cons q qs ih =>
    obtain ⟨hq, hqs⟩ := List.forall_mem_cons.mp hrst
    rw [List.length_cons] at hreach
    by_cases hlast : latencyOf L p.op ≤ s.orch.cycles + 1
    · obtain rfl : qs = [] := List.length_eq_zero_iff.mp (by omega)
      obtain ⟨t, ht, hend⟩ := cycle_completes L hq hp hlast
      exact ⟨t, by simp only [cycles, ht], hend⟩
    · obtain ⟨u, hu, hup, -, hucycles⟩ := cycle_advances L hq hp (by omega)
      obtain ⟨t, ht, hend⟩ := ih hqs hup (by omega) (by omega)
      exact ⟨t, by simpa only [cycles, hu] using ht, hend⟩

end InFlight

/-- Settles O55: the cycle of the CTRL write is the issue, rejected or accepted; from then on each cycle counts one edge, and the one that reaches the latency completes. -/
theorem latencyBoundsBusy : Obligations.LatencyBoundsBusy := by
  unfold Obligations.LatencyBoundsBusy
  refine ⟨fun L q s i hp hrst hreq hwe haddr hdata => ?_, fun L s p qs hL hp hzero hdone hrst hle => ?_⟩
  · refine ⟨_, cycle_issues L hp hrst hreq hwe haddr hdata, fun hc => ?_, fun hc => ?_⟩
    · obtain ⟨c, hc⟩ := Option.ne_none_iff_exists'.mp hc
      rw [hc, issueCommand_some, statusWord_err]
      exact ⟨hp, rfl⟩
    · rw [hc, issueCommand_none]
      exact ⟨rfl, rfl, rfl⟩
  · rcases hle.lt_or_eq with hlt | heq
    · obtain ⟨t, ht, htp, htdone⟩ := cycles_short_of_latency L hrst hp (by omega)
      refine ⟨t, ht, fun _ => ⟨htp, htdone.trans hdone, ?_⟩, fun h => absurd h hlt.ne⟩
      rw [statusWord_busy, htp, Option.isSome_some]
    · have hpos := latencyOf_pos hL p.op
      obtain ⟨t, ht, htp, htdone⟩ := cycles_reaching_latency L hrst hp (by omega) (by omega)
      refine ⟨t, ht, fun h => absurd heq h.ne, fun _ => ⟨htp, ?_, ?_⟩⟩
      · rw [statusWord_busy, htp, Option.isSome_none]
      · rw [statusWord_done, htdone]

end Sys2Proof.Machine
end
